-- ==== Sys2Proof/Word.lean ====
section
/-! DEFINITION. The widths of the 2128: bytes, bus words, handles, masks, and the fixed numbers of records, channels and segments. -/

namespace Sys2Proof

/-- One byte of a frame, a layout or the Segment Store (R28, R194). -/
abbrev Byte := BitVec 8

/-- One word of the local bus (R184). -/
abbrev Word := BitVec 32

/-- A handle, a tag or an event mask: the two-byte fields of R194 that are compared or masked, not counted. -/
abbrev Half := BitVec 16

/-- A generation, 0 to 511, which wraps (R6, R7). -/
abbrev Gen := BitVec 9

/-- A set of the ten events, bit n for the event at position n of R197. -/
abbrev EventSet := BitVec 10

/-- The index of a record entry, 0 to 127 (R1). -/
abbrev RecIdx := Fin 128

/-- A channel number, 0 to 11 (R45). -/
abbrev ChanNo := Fin 12

/-- A segment number, 0 to 511 (R28). -/
abbrev SegNo := Fin 512

/-- Bytes in a segment (R28). -/
abbrev segBytes : Nat := 128

end Sys2Proof
end

