-- ==== Sys2Proof/Syntax.lean ====
section
/-! DEFINITION. The commands of the 2128: one constructor per row of spec/opcode_table.json, with the operands its event carries. -/

namespace Sys2Proof

/-- The two sides (R194: 0 HOST, 1 LOCAL). -/
inductive Side where
  | host
  | loc
  deriving DecidableEq, Repr

/-- The requests of the request code table (R195), FETCH apart, which is a frame kind. -/
inductive Req where
  | attach | detach | evict
  | alloc | retire | settag | lookup | setlen | write | read | clone | renew
  | post | ret | claim | claimtag | claimany | tally | chaninfo
  | chancfg | chanon | chanoff | purge
  | poolinfo | quota | watermark
  | events | ack | evmask
  | openRec | closeAp
  | linkcfg
  deriving DecidableEq, Repr

/-- How a request reaches the part. -/
inductive Via where
  /-- A HOST request frame, at its end: the bits sampled on HMOSI after the eight bits of the code byte, in order of arrival
  (R165, R166). They hold the arguments, the data, the check byte and the bits of an incomplete last byte. -/
  | host (bits : List Bool)
  /-- A LOCAL write of REQ with lane 0 enabled and the code in lane 0: the bytes and the enables of lanes 1 to 3, which R186
  ignores. The arguments stand in ARG0 to ARG3. -/
  | loc (upper : BitVec 24) (lanes : BitVec 3)
  deriving DecidableEq, Repr

/-- The side a request comes from: the side of its port. -/
def Via.side : Via → Side
  | .host _ => .host
  | .loc _ _ => .loc

/-- A low pulse of nRESET or nHRST against its minimum (R201). -/
inductive Pulse where
  /-- The fall of a pulse that lasts at least the minimum; the rise is an event of its own. -/
  | full
  /-- A whole pulse, fall and rise, shorter than the minimum: one event. -/
  | short
  deriving DecidableEq, Repr

/-- A REQ write with lane 0 enabled, held by LRDY (R186): the code in lane 0, the bytes and the enables of lanes 1 to 3. -/
structure HeldWrite where
  code  : Byte
  upper : BitVec 24
  lanes : BitVec 3
  deriving DecidableEq, Repr

/-- A fall of nRESET: its pulse, the HMOSI bits so far of the frame in progress, if one is, and the REQ write held at the fall, if one is. -/
structure DeviceFall where
  pulse : Pulse
  bits  : List Bool
  held  : Option HeldWrite
  deriving DecidableEq, Repr

/-- A fall of nHRST: its pulse, and the HMOSI bits so far of the frame in progress, if one is. -/
structure LinkFall where
  pulse : Pulse
  bits  : List Bool
  deriving DecidableEq, Repr

/-- One access of the local bus (R184): direction, word offset on LA[12:2], write data, byte enables. -/
structure BusAccess where
  write : Bool
  word  : BitVec 11
  data  : Word
  be    : BitVec 4
  deriving DecidableEq, Repr

/-- The commands: the rows of spec/opcode_table.json, in the table's order. -/
inductive Instr where
  | attach (v : Via)
  | detach (v : Via)
  | evict (v : Via)
  | alloc (v : Via)
  | retire (v : Via)
  | settag (v : Via)
  | lookup (v : Via)
  | setlen (v : Via)
  | write (v : Via)
  | read (v : Via)
  | clone (v : Via)
  | renew (v : Via)
  | post (v : Via)
  | ret (v : Via)
  | claim (v : Via)
  | claimtag (v : Via)
  | claimany (v : Via)
  | tally (v : Via)
  | chaninfo (v : Via)
  | chancfg (v : Via)
  | chanon (v : Via)
  | chanoff (v : Via)
  | purge (v : Via)
  | poolinfo (v : Via)
  | quota (v : Via)
  | watermark (v : Via)
  | events (v : Via)
  | ack (v : Via)
  | evmask (v : Via)
  | openRec (v : Via)
  | closeAp (v : Via)
  | linkcfg (v : Via)
  /-- The end of a FETCH frame: the HMOSI bits after the FETCH code, which are ignored but clock the answer out. -/
  | fetch (bits : List Bool)
  /-- The end of a request frame that is discarded: every HMOSI bit of the frame, the code included. -/
  | requestFrameDiscard (bits : List Bool)
  /-- A bus write to ARG`n`: data and byte enables. -/
  | argWrite (n : Fin 4) (data : Word) (be : BitVec 4)
  /-- A register access that is answered with LERR. -/
  | busError (a : BusAccess)
  /-- A read of the aperture word at aperture offset 4 × `word`; the enables have no effect. -/
  | apertureRead (word : BitVec 10) (be : BitVec 4)
  /-- A write of the aperture word at aperture offset 4 × `word`. -/
  | apertureWrite (word : BitVec 10) (data : Word) (be : BitVec 4)
  | deviceReset (p : DeviceFall)
  | hostLinkReset (p : LinkFall)
  | leaseTick
  /-- The expiry, reported by a tick, of record `i`. -/
  | leaseExpiry (i : RecIdx)
  | copyStep
  | copyCompletion
  /-- One step of side `x`'s sweep. -/
  | sweepStep (x : Side)
  /-- The completion of side `x`'s sweep. -/
  | sweepCompletion (x : Side)
  | tclkCycle
  | nresetRises
  | nhrstReturningHigh
  | frameBegins
  /-- A request frame or a REQ write whose code is no request code (or FETCH's, at REQ). -/
  | unknownRequestCode (code : Byte) (v : Via)
  deriving DecidableEq, Repr

end Sys2Proof
end

