-- ==== Sys2Proof/Machine/Formats.lean ====
section
/-! DEFINITION. Formats, codes and signals (chapter 11): the request code table, status codes, field encodings, the bit order of the
host link and the check byte. -/

namespace Sys2Proof.Machine

/-! ## Requests (R195) -/

/-- The code of a request (R195). -/
def reqCode : Req → Byte
  | .attach => 0x01 | .detach => 0x02 | .evict => 0x03
  | .alloc => 0x10 | .retire => 0x11 | .settag => 0x12 | .lookup => 0x13 | .setlen => 0x14
  | .write => 0x15 | .read => 0x16 | .clone => 0x17 | .renew => 0x18
  | .post => 0x20 | .ret => 0x21 | .claim => 0x22 | .claimtag => 0x23 | .claimany => 0x24
  | .tally => 0x25 | .chaninfo => 0x26
  | .chancfg => 0x28 | .chanon => 0x29 | .chanoff => 0x2A | .purge => 0x2B
  | .poolinfo => 0x30 | .quota => 0x31 | .watermark => 0x32
  | .events => 0x38 | .ack => 0x39 | .evmask => 0x3A
  | .openRec => 0x40 | .closeAp => 0x41
  | .linkcfg => 0x7E

/-- The code of FETCH, which selects a frame kind (R167, R195). -/
def fetchCode : Byte := 0x7F

/-- The requests of the table, in its order. -/
def allReqs : List Req :=
  [.attach, .detach, .evict, .alloc, .retire, .settag, .lookup, .setlen, .write, .read, .clone, .renew,
   .post, .ret, .claim, .claimtag, .claimany, .tally, .chaninfo, .chancfg, .chanon, .chanoff, .purge,
   .poolinfo, .quota, .watermark, .events, .ack, .evmask, .openRec, .closeAp, .linkcfg]

/-- The request a code names; none for an unknown code (R195). -/
def reqOfCode (c : Byte) : Option Req := allReqs.find? fun r => reqCode r == c

/-- The sides that may issue a request (R13, R195). -/
def reqOpenTo (x : Side) : Req → Bool
  | .evict | .openRec | .closeAp | .chancfg | .chanon | .chanoff | .purge | .quota | .watermark => x == .loc
  | .write | .read | .linkcfg => x == .host
  | _ => true

/-- The fixed argument length of a request in bytes (R195). -/
def reqArgLen : Req → Nat
  | .attach | .detach | .evict | .claimany | .poolinfo | .events | .closeAp => 0
  | .claim | .tally | .chaninfo | .chanon | .chanoff | .purge | .linkcfg => 1
  | .retire | .lookup | .clone | .renew | .ret | .watermark | .ack | .evmask | .openRec => 2
  | .alloc | .settag | .setlen | .write | .post | .claimtag | .quota => 4
  | .read => 6
  | .chancfg => 7

/-! ## Status codes (R198) -/

/-- The status codes of R198. -/
inductive Status where
  | ok | badRequest | notAttached | sessionBusy | range | badChannel | stale | badHandle | notHolder | recordBusy
  | peerAbsent | noReply | noLease | noCredit | channelBusy | queueFull | overQuota | noRecord | noSpace | empty
  | badCheck | frameShort | none
  deriving DecidableEq, Repr

/-- The byte of a status code (R198). -/
def statusByte : Status → Byte
  | .ok => 0x00 | .badRequest => 0x01 | .notAttached => 0x02 | .sessionBusy => 0x03 | .range => 0x04
  | .badChannel => 0x05 | .stale => 0x06 | .badHandle => 0x07 | .notHolder => 0x08 | .recordBusy => 0x09
  | .peerAbsent => 0x0A | .noReply => 0x0B | .noLease => 0x0C | .noCredit => 0x0D | .channelBusy => 0x0E
  | .queueFull => 0x0F | .overQuota => 0x10 | .noRecord => 0x11 | .noSpace => 0x12 | .empty => 0x13
  | .badCheck => 0x14 | .frameShort => 0x15 | .none => 0xFF

/-! ## Fields (R194) -/

/-- A count as the two bytes of a little-endian field (R194). -/
def le16 (n : Nat) : List Byte := [BitVec.ofNat 8 n, BitVec.ofNat 8 (n / 256)]

/-- A handle, tag or mask as two bytes, the less significant first (R194). -/
def half16 (h : Half) : List Byte := [h.extractLsb' 0 8, h.extractLsb' 8 8]

/-- Argument byte `k` (R194). -/
def arg8 (args : List Byte) (k : Nat) : Byte := args.getD k 0

/-- The two-byte argument field at byte `k`, little-endian (R194). -/
def argHalf (args : List Byte) (k : Nat) : Half := arg8 args (k + 1) ++ arg8 args k

/-- The same field as an unsigned number (R194). -/
def arg16 (args : List Byte) (k : Nat) : Nat := (argHalf args k).toNat

/-- The handle of record `i` with generation `g` (R6): generation in bits 15 to 7, index in bits 6 to 0. -/
def handleOf (g : Gen) (i : RecIdx) : Half := g ++ BitVec.ofFin (w := 7) i

/-- The generation a handle carries (R6). -/
def handleGen (h : Half) : Gen := h.extractLsb' 7 9

/-- The record entry a handle names (R6). -/
def handleIdx (h : Half) : RecIdx := (h.extractLsb' 0 7).toFin

/-- A side byte (R194): 0 HOST, 1 LOCAL. -/
def sideByte : Side → Byte
  | .host => 0
  | .loc => 1

/-- The side a byte names, none outside the encoding (R194). -/
def sideOfByte (b : Byte) : Option Side := if b = 0 then some .host else if b = 1 then some .loc else none

/-- A flag or mode byte (R194). -/
def flagByte (f : Bool) : Byte := if f then 1 else 0

/-- The flag a byte names, none outside the encoding (R194). -/
def flagOfByte (b : Byte) : Option Bool := if b = 0 then some false else if b = 1 then some true else none

/-- The channel a byte names, none above 11 (R194). -/
def chanOfByte (b : Byte) : Option ChanNo := if h : b.toNat < 12 then some ⟨b.toNat, h⟩ else none

/-- A channel or its absence as a byte (R194, R196): 0xFF when absent. -/
def chanByte : Option ChanNo → Byte
  | some c => BitVec.ofNat 8 c.val
  | none => 0xFF

/-- Byte lane `k` of a bus word; lane 0 is the least significant byte (R146, R184). -/
def lane (w : Word) (k : Nat) : Byte := w.extractLsb' (8 * k) 8

/-- The bus word with the given bytes in lanes 0 to 3. -/
def ofLanes (b0 b1 b2 b3 : Byte) : Word := (b3 ++ b2) ++ (b1 ++ b0)

/-- A word after a write of its enabled lanes (R185). -/
def mergeLanes (old new : Word) (be : BitVec 4) : Word :=
  let pick (k : Nat) : Byte := if be.getLsbD k then lane new k else lane old k
  ofLanes (pick 0) (pick 1) (pick 2) (pick 3)

/-- Register `k` of RES0 to RES3 for a list of result bytes: byte 4k + j in lane j, zero where the layout has no byte (R187, R194). -/
def resWord (bytes : List Byte) (k : Nat) : Word :=
  ofLanes (bytes.getD (4 * k) 0) (bytes.getD (4 * k + 1) 0) (bytes.getD (4 * k + 2) 0) (bytes.getD (4 * k + 3) 0)

/-! ## The host link's bits (R165, R166) -/

/-- The bits of a byte in the order they travel, most significant first (R165). -/
def byteBits (b : Byte) : List Bool :=
  [b.getLsbD 7, b.getLsbD 6, b.getLsbD 5, b.getLsbD 4, b.getLsbD 3, b.getLsbD 2, b.getLsbD 1, b.getLsbD 0]

/-- The byte received as eight bits, most significant first (R165). -/
def byteOfBits (b7 b6 b5 b4 b3 b2 b1 b0 : Bool) : Byte :=
  BitVec.ofNat 8 (128 * b7.toNat + 64 * b6.toNat + 32 * b5.toNat + 16 * b4.toNat + 8 * b3.toNat + 4 * b2.toNat + 2 * b1.toNat + b0.toNat)

/-- The whole bytes of a run of received bits; the bits of an incomplete last byte are dropped (R166). -/
def wholeBytes : List Bool → List Byte
  | b7 :: b6 :: b5 :: b4 :: b3 :: b2 :: b1 :: b0 :: rest => byteOfBits b7 b6 b5 b4 b3 b2 b1 b0 :: wholeBytes rest
  | _ => []

/-- What HMISO carries over `edges` rising edges of HSCK: the bytes given, most significant bit first, then zeros (R165, R169, R175). -/
def shiftOut (edges : Nat) (bytes : List Byte) : List Bool :=
  (bytes.flatMap byteBits ++ List.replicate edges false).take edges

/-! ## The check byte (R178) -/

/-- One shift of the CRC register: polynomial x^8 + x^2 + x + 1 (R178). -/
def crcShift (r : Byte) : Byte := if r.getLsbD 7 then (r <<< 1) ^^^ 0x07 else r <<< 1

/-- One byte taken into the CRC register (R178). -/
def crcByte (r b : Byte) : Byte :=
  crcShift (crcShift (crcShift (crcShift (crcShift (crcShift (crcShift (crcShift (r ^^^ b))))))))

/-- The check byte of a run of bytes (R178). -/
def crc8 (bytes : List Byte) : Byte := bytes.foldl crcByte 0

/-! ## The offset map of the register half (R200), by word offset -/

/-- The registers of the register half. -/
inductive Reg where
  | arg (n : Fin 4)
  | req
  | stat
  | res (n : Fin 4)
  | wstat
  deriving DecidableEq, Repr

/-- The register at a word offset of the register half (byte offset / 4), none where R200 leaves it undefined. -/
def regAt : Nat → Option Reg
  | 0 => some (.arg 0) | 1 => some (.arg 1) | 2 => some (.arg 2) | 3 => some (.arg 3)
  | 4 => some .req
  | 5 => some .stat
  | 6 => some (.res 0) | 7 => some (.res 1) | 8 => some (.res 2) | 9 => some (.res 3)
  | 10 => some .wstat
  | _ => none

end Sys2Proof.Machine
end

