-- ==== Sys2Proof/WellFormed.lean ====
section
/-! DEFINITION. Which commands spell an event of the table: the checks on the three rows whose operands could name another row. -/

namespace Sys2Proof

/-- A register access that the table's BUS_ERROR row names (R190): an undefined offset, a write to a read-only register, or a REQ
write without lane 0. -/
def BusAccess.isError (a : BusAccess) : Bool :=
  !a.word.getLsbD 10 &&
    match Machine.regAt a.word.toNat with
    | none => true
    | some .req => a.write && !a.be.getLsbD 0
    | some .stat | some (.res _) | some .wstat => a.write
    | some (.arg _) => false

/-- A code that no request has; at the host link FETCH is a frame kind of its own (R167, R195). -/
def unknownCode (c : Byte) : Via → Bool
  | .host _ => (Machine.reqOfCode c).isNone && c != Machine.fetchCode
  | .loc _ _ => (Machine.reqOfCode c).isNone

/-- A whole frame that is not a FETCH frame: no whole byte, or a first byte other than FETCH's code (R166, R167). -/
def notFetchFrame (bits : List Bool) : Bool := (Machine.wholeBytes bits).head? != some Machine.fetchCode

/-- The check on a command. The rows left to `true` have no operand that could spell another row. -/
def Instr.wellFormed : Instr → Bool
  | .unknownRequestCode c v => unknownCode c v
  | .requestFrameDiscard bits => notFetchFrame bits
  | .busError a => a.isError
  | .attach _ | .detach _ | .evict _ | .alloc _ | .retire _ | .settag _ | .lookup _ | .setlen _ | .write _ | .read _
  | .clone _ | .renew _ | .post _ | .ret _ | .claim _ | .claimtag _ | .claimany _ | .tally _ | .chaninfo _ | .chancfg _
  | .chanon _ | .chanoff _ | .purge _ | .poolinfo _ | .quota _ | .watermark _ | .events _ | .ack _ | .evmask _
  | .openRec _ | .closeAp _ | .linkcfg _ | .fetch _ | .argWrite _ _ _ | .apertureRead _ _ | .apertureWrite _ _ _
  | .deviceReset _ | .hostLinkReset _ | .leaseTick | .leaseExpiry _ | .copyStep | .copyCompletion | .sweepStep _
  | .sweepCompletion _ | .tclkCycle | .nresetRises | .nhrstReturningHigh | .frameBegins => true

end Sys2Proof
end

