-- ==== Sys2Proof/Decode.lean ====
section
/-! DEFINITION. Decoding by the table's bits: spec/opcode_table.json gives no row any bits, so no word spells a command (log 18). -/

namespace Sys2Proof

/-- The command a word spells by the table's bits: none, since no row of spec/opcode_table.json has "fixed" bits. -/
def decodeTableWord (_nbits _w : Nat) : Option Instr := none

end Sys2Proof
end

