-- ==== Sys2Proof/Config.lean ====
section
/-! DEFINITION. What the spec leaves to chance: the one free value of the part. -/

namespace Sys2Proof

/-- Whether a reset pulse shorter than its minimum is taken as a reset (R201: "which of them occurs is not fixed").
A free value: nothing in Lean can evaluate it. The argument is the draw counter `State.freeCount` (log 9). -/
opaque Config.shortPulseTaken : Nat → Bool

end Sys2Proof
end

