-- ==== Sys2Proof/Machine/State.lean ====
section
/-! DEFINITION. The state of the 2128, block by block, as plain data, and its value after device reset. -/

namespace Sys2Proof.Machine

/-- One value for each side. -/
structure Per (α : Type) where
  host : α
  loc  : α
  deriving DecidableEq, Repr

/-- The value of a side. -/
def Per.get {α : Type} (p : Per α) : Side → α
  | .host => p.host
  | .loc => p.loc

/-- The pair with one side's value replaced. -/
def Per.set {α : Type} (p : Per α) (x : Side) (a : α) : Per α :=
  match x with
  | .host => { p with host := a }
  | .loc => { p with loc := a }

/-! ## Custody Table (chapter 01) -/

/-- What a live record carries whether HELD or QUEUED (R1). The capacity is 128 times the number of segments. -/
structure Buffer where
  segs    : List SegNo
  length  : Nat
  tag     : Half
  reply   : Option ChanNo
  pins    : Nat
  filling : Bool
  deriving DecidableEq, Repr

/-- A lease (R83): the remaining count, 1 to 4095, and whether a lease tick's event at this record has been reported and is not
yet taken (R85; log 7). -/
structure Lease where
  remaining : Nat
  due       : Bool
  deriving DecidableEq, Repr

/-- The fields of a HELD record (R1, R3). -/
structure Held where
  holder : Side
  origin : Option ChanNo
  lease  : Option Lease
  buf    : Buffer
  deriving DecidableEq, Repr

/-- The fields of a QUEUED record (R1, R4). Its queue position is its place in the channel's queue. -/
structure Queued where
  chan : ChanNo
  buf  : Buffer
  deriving DecidableEq, Repr

/-- The state of a record, with the fields present in it (R1: a field absent has no value). -/
inductive Custody where
  | free
  | held (h : Held)
  | queued (q : Queued)
  deriving DecidableEq, Repr

/-- A record entry (R1); its index is its place in the table. -/
structure Entry where
  gen     : Gen
  custody : Custody
  deriving DecidableEq, Repr

/-! ## Segment Store (chapter 02) -/

/-- The bytes of the Segment Store: segment s, byte b at address 128 s + b. Addresses rise, and no entry equals the byte an unlisted
address reads as. -/
abbrev Memory := List Host.Cell

/-- What an address the list does not name reads as (log 10, DESIGN CHOICE: R29 gives no power-up value and no path reads one). -/
def Memory.unlisted : Byte := 0

/-- The canonical form of a memory. -/
abbrev Memory.wf (m : Memory) : Prop :=
  m.Pairwise (fun a b => a.1 < b.1) ∧ ∀ c ∈ m, c.2 ≠ Memory.unlisted

/-! ## Channel Unit (chapter 03) -/

/-- A channel descriptor (R45). -/
structure Channel where
  enabled     : Bool
  source      : Side
  depth       : Nat
  priority    : Nat
  leaseTime   : Nat
  flush       : Bool
  queue       : List RecIdx
  outstanding : Nat
  tally       : Nat
  deriving DecidableEq, Repr

/-- A channel descriptor after device reset (R45, R81). -/
def Channel.reset : Channel :=
  { enabled := false, source := .host, depth := 0, priority := 0, leaseTime := 0, flush := false,
    queue := [], outstanding := 0, tally := 0 }

/-! ## Copy Engine (chapter 05) -/

/-- A copy job (R99). -/
structure Job where
  source : RecIdx
  clone  : RecIdx
  side   : Side
  deriving DecidableEq, Repr

/-! ## Session Controller (chapter 06) -/

/-- A sweep position (R114): the index of the next record the walk reaches, or END. -/
inductive SweepPos where
  | next (i : RecIdx)
  | done
  deriving DecidableEq, Repr

/-- A session state (R114); the sweep position is present only while SWEEPING. -/
inductive Session where
  | detached
  | attached
  | sweeping (pos : SweepPos)
  deriving DecidableEq, Repr

/-! ## Event Unit (chapter 08) -/

/-- The ten events (R153). -/
inductive Event where
  | claimable | tally | leaseLost | copyDone | copyAborted | peerUp | peerGone | poolLow | poolOk | apertureFault
  deriving DecidableEq, Repr

/-! ## Host Link Port (chapter 09) -/

/-- The frame receiver (R165, R166). -/
inductive Receiver where
  /-- nHCS is high. -/
  | idle
  /-- A frame is in progress; the link status byte as it stood at the fall of nHCS (R168). -/
  | collecting (status : Byte)
  /-- nHCS is low and the frame will not be taken: a reset line fell during it (R180, R182). The bits are those HMISO carried before the
  fall; it is high-impedance from then on. -/
  | abandoned (sent : List Bool)
  /-- nHCS is low and the frame will not be taken: it began under a reset line, and HMISO is high-impedance throughout (R166). -/
  | ignoring
  deriving DecidableEq, Repr

/-- The response slot (R170): its state, and the answer held. -/
inductive Slot where
  | empty
  | ready (answer : List Byte)
  | fetched (answer : List Byte)
  deriving DecidableEq, Repr

/-! ## Local Window (chapter 10) -/

/-- How a local bus access completed (R184, R190): LERR, and the read data (absent for a write). -/
structure BusAnswer where
  lerr : Bool
  data : Option Word
  deriving DecidableEq, Repr

/-! ## The machine -/

/-- The state of the 2128. HIRQ, LIRQ, the two conditions of each side, the link status byte and WSTAT are functions of it
(Machine/Flags.lean). -/
structure State where
  /-- Custody Table: the 128 record entries (R1). -/
  records    : Vector Entry 128
  /-- Custody Table: the free-record list, head first (R10). -/
  freeRecs   : List RecIdx
  /-- Segment Store (R28). -/
  store      : Memory
  /-- Segment Allocator: the free-segment list, head first (R30). -/
  freeSegs   : List SegNo
  /-- Segment Allocator: the charges (R33). -/
  charge     : Per Nat
  /-- Segment Allocator: the quotas (R35). -/
  quota      : Per Nat
  /-- Segment Allocator: the watermark (R39). -/
  watermark  : Nat
  /-- Channel Unit: the twelve descriptors (R45). -/
  chans      : Vector Channel 12
  /-- Channel Unit: the round-robin pointers (R45, R72). -/
  rr         : Per ChanNo
  /-- Lease Timer: the prescaler (R82). -/
  prescaler  : BitVec 10
  /-- Lease Timer: lease ticks produced by the prescaler and not yet taken (R82; log 6). -/
  ticksDue   : Nat
  /-- Copy Engine: the copy queue, the active job first (R99). -/
  jobs       : List Job
  /-- Copy Engine: the active job's progress (R100, R103; 0 with no job, log 11; after the last step the number of steps, log 24). -/
  progress   : Nat
  /-- Session Controller: the session states and sweep positions (R114). -/
  session    : Per Session
  /-- Event Unit: the latched sets (R153). -/
  latched    : Per EventSet
  /-- Event Unit: the enable sets (R153). -/
  enables    : Per EventSet
  /-- Host Link Port: the frame receiver (R165). -/
  rx         : Receiver
  /-- HMISO over the last frame that ended: the bits shifted out, or none where it stayed high-impedance (R165, R166, R168). -/
  shifted    : Option (List Bool)
  /-- Host Link Port: the response slot (R170). -/
  slot       : Slot
  /-- Host Link Port: the OVERRUN flag (R170). -/
  overrun    : Bool
  /-- Host Link Port: check mode (R179). -/
  checkMode  : Bool
  /-- Local Window: ARG0 to ARG3 (R185). -/
  args       : Vector Word 4
  /-- Local Window: REQ, lane 0 (R188). -/
  req        : Byte
  /-- Local Window: STAT (R187, R200). -/
  stat       : Word
  /-- Local Window: RES0 to RES3 (R187). -/
  res        : Vector Word 4
  /-- Local Window: the aperture binding (R143). -/
  aperture   : Option RecIdx
  /-- Local bus: how the last access completed (R184, R190). -/
  bus        : Option BusAnswer
  /-- The level of nRESET. -/
  nRESET     : Bool
  /-- The level of nHRST. -/
  nHRST      : Bool
  /-- The model's own: how many free values have been drawn (log 9). -/
  freeCount  : Nat
  /-- Commands not yet taken, first in first out. -/
  pending    : List Instr
  deriving DecidableEq, Repr

/-- No event of the 2128 stops it: every request is answered, every bus access completes, every frame ends (R12, R170, R186, R190).
There is no fault to raise, so the type has no constructor (log 17). -/
inductive Fault where
  deriving DecidableEq, Repr

/-- The reasons a command has no meaning here. -/
inductive Refusal where
  /-- Raised by an arm of `exec` whose command has no meaning yet. Safe: the model stops. No arm raises it now. -/
  | notModelled (mnemonic : String)
  deriving DecidableEq, Repr

/-- The machine once device reset has ended: every value as R27, R44, R81, R95, R109, R133, R152, R164, R182 and R193 give it,
nRESET and nHRST high, no frame in progress, no bus access made (logs 10, 11). -/
def State.reset : State :=
  { records := Vector.replicate 128 { gen := 0, custody := .free }
    freeRecs := List.finRange 128
    store := []
    freeSegs := List.finRange 512
    charge := ⟨0, 0⟩
    quota := ⟨512, 512⟩
    watermark := 0
    chans := Vector.replicate 12 Channel.reset
    rr := ⟨0, 0⟩
    prescaler := 0
    ticksDue := 0
    jobs := []
    progress := 0
    session := ⟨.detached, .detached⟩
    latched := ⟨0, 0⟩
    enables := ⟨0, 0⟩
    rx := .idle
    shifted := none
    slot := .empty
    overrun := false
    checkMode := false
    args := Vector.replicate 4 0
    req := 0
    stat := 0
    res := Vector.replicate 4 0
    aperture := none
    bus := none
    nRESET := true
    nHRST := true
    freeCount := 0
    pending := [] }

end Sys2Proof.Machine
end

