-- ==== Sys2Proof/Machine/Flags.lean ====
section
/-! DEFINITION. The Event Unit's sets, the Channel Unit's conditions, the interrupt lines, and the two status reports (link status byte, WSTAT). -/

namespace Sys2Proof.Machine

/-- The other side (the peer). -/
def peer : Side → Side
  | .host => .loc
  | .loc => .host

/-- The position of an event in every mask (R197). -/
def eventBit : Event → Nat
  | .claimable => 0 | .tally => 1 | .leaseLost => 2 | .copyDone => 3 | .copyAborted => 4
  | .peerUp => 5 | .peerGone => 6 | .poolLow => 7 | .poolOk => 8 | .apertureFault => 9

/-- The set of one event. -/
def eventMask (e : Event) : EventSet := 1#10 <<< eventBit e

/-- The set as the two bytes of a report or answer; bits 10 to 15 are zero (R194, R197). -/
def setBytes (m : EventSet) : List Byte := half16 (m.setWidth 16)

/-- Whether a mask argument names only positions of the ten events (R160, R161, R197). -/
def maskInRange (m : Half) : Bool := m.extractLsb' 10 6 == 0

/-- The set a mask argument names. -/
def setOfMask (m : Half) : EventSet := m.setWidth 10

/-- Event `e` is latched at side `x` (R154, R155): whatever the session and the enables; a pending event stays as it is. -/
def latch (x : Side) (e : Event) (s : State) : State :=
  { s with latched := s.latched.set x (s.latched.get x ||| eventMask e) }

/-- Event `e` is latched at both sides in one step (R40, R41). -/
def latchBoth (e : Event) (s : State) : State := latch .loc e (latch .host e s)

/-- The destination side of a channel (R46). -/
def chanDest (ch : Channel) : Side := peer ch.source

/-- CLAIMABLE of side `x` (R80): an ENABLED channel destined for `x` has a non-empty queue. -/
def claimable (s : State) (x : Side) : Bool :=
  s.chans.toList.any fun ch => ch.enabled && chanDest ch == x && !ch.queue.isEmpty

/-- TALLY of side `x` (R80): a channel sourced by `x`, in either state, has a tally above 0. -/
def tallyCond (s : State) (x : Side) : Bool :=
  s.chans.toList.any fun ch => ch.source == x && decide (0 < ch.tally)

/-- The conditions true for side `x`, as a set (R159). -/
def conditions (s : State) (x : Side) : EventSet :=
  (if claimable s x then eventMask .claimable else 0) ||| (if tallyCond s x then eventMask .tally else 0)

/-- The level of HIRQ for HOST, of LIRQ for LOCAL (R158): asserted while a pending latched event or a true condition is enabled. -/
def State.line (s : State) (x : Side) : Bool :=
  (s.latched.get x ||| conditions s x) &&& s.enables.get x != 0

/-- A session state as a number (R194). -/
def sessionCode : Session → Nat
  | .detached => 0
  | .attached => 1
  | .sweeping _ => 2

/-- The slot state of the link status byte (R199). -/
def slotCode : Slot → Nat
  | .empty => 0
  | .ready _ => 1
  | .fetched _ => 2

/-- The link status byte as the state stands (R168, R199). -/
def linkStatus (s : State) : Byte :=
  BitVec.ofNat 8 (64 * slotCode s.slot + 32 * s.overrun.toNat + 8 * sessionCode s.session.host
    + 4 * (s.line .host).toNat + 2 * s.checkMode.toNat)

/-- The handle of the bound record from its current generation, zero while unbound (R189). -/
def boundHandle (s : State) : Half :=
  match s.aperture with
  | some i => handleOf s.records[i].gen i
  | none => 0

/-- WSTAT as a read returns it (R189, R200). -/
def wstat (s : State) : Word :=
  boundHandle s ++ BitVec.ofNat 16 (sessionCode s.session.host + 4 * sessionCode s.session.loc
    + 16 * s.aperture.isSome.toNat + 32 * (s.line .loc).toNat)

end Sys2Proof.Machine
end

