-- ==== Sys2Proof/Machine/Ops.lean ====
section
/-! DEFINITION. The named operations on the state: the store, records, channels, charges, takes and gives, copy jobs, release,
the retirement path, and the start of a sweep. -/

namespace Sys2Proof.Machine

/-! ## The store (R28, R29) -/

/-- The byte at an address. -/
def Memory.read : Memory → Nat → Byte
  | [], _ => Memory.unlisted
  | (k, v) :: rest, a => if k = a then v else Memory.read rest a

/-- The memory with one byte written, in canonical form again. -/
def Memory.write : Memory → Nat → Byte → Memory
  | [], a, v => if v = Memory.unlisted then [] else [(a, v)]
  | (k, w) :: rest, a, v =>
    if a < k then (if v = Memory.unlisted then (k, w) :: rest else (a, v) :: (k, w) :: rest)
    else if a = k then (if v = Memory.unlisted then rest else (a, v) :: rest)
    else (k, w) :: Memory.write rest a v

/-- A record's capacity in bytes (R1, R28). -/
def Buffer.capacity (b : Buffer) : Nat := segBytes * b.segs.length

/-- The store address of record offset `o` (R28): byte o mod 128 of the segment at position o / 128; none at or beyond the capacity. -/
def recAddr (b : Buffer) (o : Nat) : Option Nat := (b.segs[o / segBytes]?).map fun g => segBytes * g.val + o % segBytes

/-- The byte a read of record offset `o` returns (R136): the stored byte below the length, zero at and beyond it. -/
def readByte (m : Memory) (b : Buffer) (o : Nat) : Byte :=
  if o < b.length then (match recAddr b o with | some a => m.read a | none => 0) else 0

/-- The bytes of a run of record offsets from `o` (R136). -/
def readRun (m : Memory) (b : Buffer) (o count : Nat) : List Byte := (List.range count).map fun k => readByte m b (o + k)

/-- The store after a run of bytes is written from record offset `o` upward (R28, R137). -/
def writeRun (m : Memory) (b : Buffer) (o : Nat) : List Byte → Memory
  | [] => m
  | d :: rest => writeRun (match recAddr b o with | some a => m.write a d | none => m) b (o + 1) rest

/-! ## Records and channels -/

/-- Record entry `i`. -/
def State.entry (s : State) (i : RecIdx) : Entry := s.records[i]

/-- The state with entry `i` replaced. -/
def State.setEntry (s : State) (i : RecIdx) (e : Entry) : State := { s with records := s.records.set i e }

/-- Channel `c`. -/
def State.chan (s : State) (c : ChanNo) : Channel := s.chans[c]

/-- The state with channel `c` replaced. -/
def State.setChan (s : State) (c : ChanNo) (ch : Channel) : State := { s with chans := s.chans.set c ch }

/-- The buffer of a live record. -/
def Custody.buf? : Custody → Option Buffer
  | .free => none
  | .held h => some h.buf
  | .queued q => some q.buf

/-- A custody with its buffer changed; FREE has none. -/
def Custody.mapBuf (f : Buffer → Buffer) : Custody → Custody
  | .free => .free
  | .held h => .held { h with buf := f h.buf }
  | .queued q => .queued { q with buf := f q.buf }

/-- The state with the buffer of record `i` changed. -/
def mapBuf (i : RecIdx) (f : Buffer → Buffer) (s : State) : State :=
  s.setEntry i { s.entry i with custody := (s.entry i).custody.mapBuf f }

/-- The custody entry of a HELD record is replaced. -/
def setHeld (i : RecIdx) (h : Held) (s : State) : State := s.setEntry i { s.entry i with custody := .held h }

/-- The handle of record `i` from its current generation (R6). -/
def currentHandle (s : State) (i : RecIdx) : Half := handleOf (s.entry i).gen i

/-! ## Charges and the pool (R31 to R34, R40, R41) -/

/-- The charge of side `x` rises by `n`. -/
def addCharge (x : Side) (n : Nat) (s : State) : State := { s with charge := s.charge.set x (s.charge.get x + n) }

/-- The charge of side `x` falls by `n`. -/
def subCharge (x : Side) (n : Nat) (s : State) : State := { s with charge := s.charge.set x (s.charge.get x - n) }

/-- The charge for `n` segments moves from one side to the other (R34). -/
def moveCharge (src dst : Side) (n : Nat) (s : State) : State := addCharge dst n (subCharge src n s)

/-- A take of `n` segments from the head of the free-segment list, with its POOL_LOW crossing (R31, R40). -/
def takeSegs (n : Nat) (s : State) : State :=
  let t := { s with freeSegs := s.freeSegs.drop n }
  if s.watermark ≤ s.freeSegs.length ∧ t.freeSegs.length < s.watermark then latchBoth .poolLow t else t

/-- A give of a record's segments at the tail of the free-segment list, with its POOL_OK crossing (R32, R41). -/
def giveSegs (segs : List SegNo) (s : State) : State :=
  let t := { s with freeSegs := s.freeSegs ++ segs }
  if s.freeSegs.length < s.watermark ∧ s.watermark ≤ t.freeSegs.length then latchBoth .poolOk t else t

/-- The segments that hold `len` bytes, rounded up (R18, R97). -/
def segsFor (len : Nat) : Nat := (len + 127) / segBytes

/-! ## Release and the tally (R56 to R58) -/

/-- A tally raised by one, saturating at 65535 (R58). -/
def tallyUp (n : Nat) : Nat := min 65535 (n + 1)

/-- One record leaves a channel's accounting: outstanding falls by one, the tally rises by one (R56, R57). -/
def settle (ch : Channel) : Channel := { ch with outstanding := ch.outstanding - 1, tally := tallyUp ch.tally }

/-- The release of channel `c` (R56). -/
def release (c : ChanNo) (s : State) : State := s.setChan c (settle (s.chan c))

/-- The release of a HELD record's origin channel, where it has one (R21 step 4, R60 step 3). -/
def releaseOrigin (origin : Option ChanNo) (s : State) : State :=
  match origin with
  | some c => release c s
  | none => s

/-! ## The aperture binding (R150) -/

/-- The aperture is unbound if it is bound to record `i`. -/
def unbindFrom (i : RecIdx) (s : State) : State := if s.aperture = some i then { s with aperture := none } else s

/-! ## Copy jobs (R99, R105) -/

/-- The pin count of a source falls by one (R104, R105). -/
def unpin (i : RecIdx) (s : State) : State := mapBuf i (fun b => { b with pins := b.pins - 1 }) s

/-- The progress after the jobs `p` names leave the queue: 0 when the active job is one of them (R105). -/
def progressAfter (p : Job → Bool) (jobs : List Job) (progress : Nat) : Nat :=
  match jobs with
  | [] => progress
  | j :: _ => if p j then 0 else progress

/-- The jobs `p` names are removed in queue order: each source is unpinned by one, the rest close up and keep their order (R105). -/
def removeJobs (p : Job → Bool) (s : State) : State :=
  { (s.jobs.filter p).foldl (fun t j => unpin j.source t) s with
    jobs := s.jobs.filter fun j => !p j
    progress := progressAfter p s.jobs s.progress }

/-! ## The retirement path (R21) -/

/-- Steps 5 to 7 of R21: the segments go back, the charge of side `x` falls, the generation advances, the entry becomes FREE and its
index joins the free-record list; the POOL_OK crossing is judged. -/
def freeEntry (i : RecIdx) (x : Side) (segs : List SegNo) (s : State) : State :=
  let t := giveSegs segs (subCharge x segs.length s)
  { t.setEntry i { gen := (t.entry i).gen + 1, custody := .free } with freeRecs := t.freeRecs ++ [i] }

/-- Step 1 of R21: the copy job of a filling clone, if it is still in the queue, is removed. -/
def dropCloneJob (i : RecIdx) (filling : Bool) (s : State) : State :=
  if filling then removeJobs (fun j => j.clone == i) s else s

/-- The retirement path of record `i` (R21). A QUEUED record's caller has already made the queue removal and count (R78). The lease
of step 2 goes with the entry. -/
def retirePath (i : RecIdx) (s : State) : State :=
  match (s.entry i).custody with
  | .free => s
  | .held h =>
    freeEntry i h.holder h.buf.segs (releaseOrigin h.origin (unbindFrom i (dropCloneJob i h.buf.filling s)))
  | .queued q =>
    freeEntry i (s.chan q.chan).source q.buf.segs (unbindFrom i (dropCloneJob i q.buf.filling s))

/-! ## Purge (R78, R125) -/

/-- One record of a purge: it leaves the head part of the queue, the channel is settled, the record is retired (R78). -/
def purgeOne (c : ChanNo) (s : State) (i : RecIdx) : State :=
  retirePath i (s.setChan c (settle { s.chan c with queue := (s.chan c).queue.erase i }))

/-- Every record queued on channel `c` is retired, head to tail (R78). -/
def purgeQueue (c : ChanNo) (s : State) : State := (s.chan c).queue.foldl (purgeOne c) s

/-- The flush purge at the completion of side `x`'s sweep: each flush-on-detach channel destined for `x`, ascending (R125). -/
def flushPurge (x : Side) (s : State) : State :=
  (List.finRange 12).foldl
    (fun t c => if (t.chan c).flush && chanDest (t.chan c) == x then purgeQueue c t else t) s

/-! ## A record joins a channel (R60, R65) -/

/-- A record HELD with `h` is placed at the tail of channel `c` with the reply channel given (R60 steps 1 to 5). The lease goes with the
HELD fields. -/
def placeOn (i : RecIdx) (h : Held) (c : ChanNo) (reply : Option ChanNo) (s : State) : State :=
  let t := releaseOrigin h.origin (unbindFrom i s)
  let u := t.setEntry i { t.entry i with custody := .queued { chan := c, buf := { h.buf with reply := reply } } }
  u.setChan c { u.chan c with queue := (u.chan c).queue ++ [i], outstanding := (u.chan c).outstanding + 1 }

/-! ## The start of a sweep (R121) -/

/-- The start of side `x`'s sweep (R121). -/
def startSweep (x : Side) (s : State) : State :=
  let t := removeJobs (fun j => j.side == x)
    { s with session := s.session.set x (.sweeping (.next 0)), enables := s.enables.set x 0 }
  match x with
  | .loc => { t with aperture := none }
  | .host => t

end Sys2Proof.Machine
end

