-- ==== Sys2Proof/Machine/Operands.lean ====
section
/-! DEFINITION. The check order (R12) as combinators over the operand forms: what a request is answered, the admission checks, the handle
and custody checks, and the channel arguments. -/

namespace Sys2Proof.Machine

/-- The outcome of a request's checks: refused with a status code and no change (R17), or accepted with its result bytes (R194; for READ
the data bytes follow them) and the state after its effect. -/
inductive Verdict where
  | refuse (st : Status)
  | accept (result : List Byte) (s : State)
  deriving DecidableEq, Repr

/-- One check of the check order: where `p` fails the request is answered `st`. -/
def demand (p : Prop) [Decidable p] (st : Status) (k : Verdict) : Verdict := if p then k else .refuse st

/-- A check on an argument that must decode: where it does not, the request is answered `st`. -/
def demandSome {α : Type} (o : Option α) (st : Status) (k : α → Verdict) : Verdict :=
  match o with
  | some a => k a
  | none => .refuse st

/-- What step 2 answers a request of a side in session state `ses` (R14); none where it passes. -/
def sessionCheck (r : Req) (ses : Session) : Option Status :=
  match r, ses with
  | .linkcfg, _ => none
  | .attach, .sweeping _ => some .sessionBusy
  | .attach, _ => none
  | _, .attached => none
  | _, _ => some .notAttached

/-- Steps 1 and 2 of the check order (R12, R13, R14). -/
def whenPermitted (r : Req) (x : Side) (s : State) (k : Verdict) : Verdict :=
  demand (reqOpenTo x r) .badRequest <|
    match sessionCheck r (s.session.get x) with
    | some st => .refuse st
    | none => k

/-- Step 4, the handle check (R8): STALE, then BAD_HANDLE. -/
def withCurrent (h : Half) (s : State) (k : RecIdx → Custody → Verdict) : Verdict :=
  let e := s.entry (handleIdx h)
  demand (handleGen h = e.gen) .stale <| demand (e.custody ≠ .free) .badHandle <| k (handleIdx h) e.custody

/-- Steps 4 and 5: the handle check and the custody check (R8, R15). -/
def withHeld (x : Side) (h : Half) (s : State) (k : RecIdx → Held → Verdict) : Verdict :=
  withCurrent h s fun i c =>
    match c with
    | .held r => demand (r.holder = x) .notHolder (k i r)
    | _ => .refuse .notHolder

/-- A request with a channel argument at byte `b`: RANGE above 11 (step 3). -/
def withChan (b : Byte) (k : ChanNo → Verdict) : Verdict := demandSome (chanOfByte b) .range k

/-- POST's optional reply channel argument (R194): 0xFF absent, 12 to 254 out of range. -/
def replyOfByte (b : Byte) : Option (Option ChanNo) := if b = 0xFF then some none else (chanOfByte b).map some

/-- The channel is flush-on-detach and its destination is not ATTACHED (R59, R63). -/
def peerAbsentOn (ch : Channel) (s : State) : Bool := ch.flush && s.session.get (chanDest ch) != .attached

end Sys2Proof.Machine
end

