-- ==== Sys2Proof/Machine/Ports.lean ====
section
/-! DEFINITION. The two ports: how a frame or a REQ write presents a request to the check order, and where its answer is put
(chapters 09 and 10). -/

namespace Sys2Proof.Machine

/-- A request's checks and effect from step 1 on, for a side and its argument bytes (with WRITE's data after the fixed arguments). -/
abbrev Handler := Side → List Byte → State → Verdict

/-! ## The host link -/

/-- The receiver as it stands when a frame's end is taken. Where no FRAME_BEGINS was taken before it, the frame begins in this same step
(log 2): it is collected when both reset lines are high, else ignored (R166). -/
def rxNow (s : State) : Receiver :=
  match s.rx with
  | .idle => if s.nRESET && s.nHRST then .collecting (linkStatus s) else .ignoring
  | r => r

/-- The end of a frame: nHCS is high again, and HMISO carried `edges` bits of `bytes` after the link status byte, what it carried before a
reset line abandoned the frame, or nothing through a frame that began under one (R165, R166, R168, R169, R175, R180). -/
def closeFrame (edges : Nat) (bytes : List Byte) (s : State) : State :=
  match rxNow s with
  | .collecting st => { s with rx := .idle, shifted := some (shiftOut edges (st :: bytes)) }
  | .abandoned sent => { s with rx := .idle, shifted := some sent }
  | _ => { s with rx := .idle, shifted := none }

/-- Whether the frame that ends now is taken (R166). -/
def frameTaken (s : State) : Bool :=
  match rxNow s with
  | .collecting _ => true
  | _ => false

/-- A check byte is required when check mode is on, and for a LINKCFG frame in either mode (R172). -/
def checkNeeded (checkMode : Bool) (code : Byte) : Bool := checkMode || code == reqCode .linkcfg

/-- The argument bytes of a frame: those after the code, less the check byte when one is required (R172). -/
def frameArgs (checkMode : Bool) (code : Byte) (body : List Byte) : List Byte :=
  if checkNeeded checkMode code then body.dropLast else body

/-- The port's own checks P1 to P4 in order (R172); none where the frame is carried inward. -/
def portCheck (checkMode : Bool) (code : Byte) (body : List Byte) : Option Status :=
  let args := frameArgs checkMode code body
  if checkNeeded checkMode code && body.isEmpty then some .frameShort
  else if checkNeeded checkMode code && body.getLast? != some (crc8 (code :: body.dropLast)) then some .badCheck
  else
    match reqOfCode code with
    | none => none
    | some r =>
      if reqOpenTo .host r && decide (args.length < reqArgLen r) then some .frameShort
      else if r == .write && decide (256 < args.length - reqArgLen .write) then some .range
      else none

/-! ## What a port makes of a request -/

/-- A request as its port meets it. -/
inductive Presented where
  /-- Not taken at all: a frame ignored or discarded, a REQ write under nRESET. -/
  | dropped
  /-- Answered by the port with a status code (R172). -/
  | turned (st : Status)
  /-- Presented to the check order with these argument bytes. -/
  | carried (args : List Byte)
  deriving DecidableEq, Repr

/-- The sixteen bytes of ARG0 to ARG3 (R185, R194). -/
def argBytes (s : State) : List Byte :=
  (List.range 16).map fun k => lane (s.args.toList.getD (k / 4) 0) (k % 4)

/-- What the port makes of a request with code `code` (R166, R171, R172, R186, R193). -/
def present (v : Via) (code : Byte) (s : State) : Presented :=
  match v with
  | .loc _ _ => if s.nRESET then .carried (argBytes s) else .dropped
  | .host bits =>
    if frameTaken s then
      match s.slot with
      | .ready _ => .dropped
      | _ =>
        match portCheck s.checkMode code (wholeBytes bits) with
        | some st => .turned st
        | none => .carried (frameArgs s.checkMode code (wholeBytes bits))
    else .dropped

/-- The port's own effect of a request that reaches it, before any answer: a frame ends, and OVERRUN is set over a READY slot (R171); a
REQ write records its code (R186), or is answered with LERR while nRESET is low (R193). -/
def entered (v : Via) (code : Byte) (s : State) : State :=
  match v with
  | .loc _ _ =>
    if s.nRESET then { s with req := code, bus := some { lerr := false, data := none } }
    else { s with bus := some { lerr := true, data := none } }
  | .host bits =>
    let t := closeFrame (8 + bits.length) [] s
    if frameTaken s then
      match s.slot with
      | .ready _ => { t with overrun := true }
      | _ => t
    else t

/-- The answer is put where the port keeps it: the response slot, which becomes READY (R174), or STAT and RES0 to RES3 (R187). -/
def answered (v : Via) (code : Byte) (st : Status) (result : List Byte) (s : State) : State :=
  match v with
  | .host _ => { s with slot := .ready (statusByte st :: result) }
  | .loc _ _ =>
    { s with
      stat := ofLanes (statusByte st) code 0 0
      res := #v[resWord result 0, resWord result 1, resWord result 2, resWord result 3] }

/-- A request is taken: its port presents it, the check order answers it, the answer is put in its place, all in one step (R11, R174,
R187). A refused request leaves everything else as it was (R17). -/
def takeRequest (code : Byte) (h : Handler) (v : Via) (s : State) : State :=
  let t := entered v code s
  match present v code s with
  | .dropped => t
  | .turned st => answered v code st [] t
  | .carried args =>
    match h v.side args t with
    | .refuse st => answered v code st [] t
    | .accept result u => answered v code .ok result u

end Sys2Proof.Machine
end

