-- ==== Sys2Proof/Machine/Channels.lean ====
section
/-! DEFINITION. The Channel Unit's requests (chapter 03): configuration, POST, RETURN, the claim family, TALLY, CHANINFO, PURGE. -/

namespace Sys2Proof.Machine

/-! ## Configuration -/

/-- CHANCFG (channel, source side, depth, priority, lease time, flush flag) (R51, R52). -/
def chancfgRequest (x : Side) (args : List Byte) (s : State) : Verdict :=
  let depth := (arg8 args 2).toNat
  let prio := (arg8 args 3).toNat
  let leaseTime := arg16 args 4
  whenPermitted .chancfg x s <| withChan (arg8 args 0) fun c =>
    demandSome (sideOfByte (arg8 args 1)) .range fun src =>
      demand ((1 ≤ depth ∧ depth ≤ 32) ∧ prio ≤ 3 ∧ leaseTime ≤ 4095) .range <|
        demandSome (flagOfByte (arg8 args 6)) .range fun flush =>
          demand ((s.chan c).enabled = false) .channelBusy <|
            .accept [] (s.setChan c { s.chan c with
              source := src, depth := depth, priority := prio, leaseTime := leaseTime, flush := flush, tally := 0 })

/-- CHANON (channel) (R53): a DISABLED channel of depth 0 is unconfigured and is answered RANGE. -/
def chanonRequest (x : Side) (args : List Byte) (s : State) : Verdict :=
  whenPermitted .chanon x s <| withChan (arg8 args 0) fun c =>
    demand ((s.chan c).enabled = true ∨ (s.chan c).depth ≠ 0) .range <|
      .accept [] (s.setChan c { s.chan c with enabled := true })

/-- CHANOFF (channel) (R54). -/
def chanoffRequest (x : Side) (args : List Byte) (s : State) : Verdict :=
  whenPermitted .chanoff x s <| withChan (arg8 args 0) fun c =>
    demand ((s.chan c).outstanding = 0) .channelBusy <|
      .accept [] (s.setChan c { s.chan c with enabled := false })

/-! ## POST and RETURN -/

/-- The channel checks of a record onto channel `c` by side `x` and its credit check (R59, R64): ENABLED and sourced by `x`, the further
check `more` of POST's reply channel, PEER_ABSENT, NO_CREDIT. -/
def withRoom (x : Side) (c : ChanNo) (more : Bool) (s : State) (k : Verdict) : Verdict :=
  let ch := s.chan c
  demand (ch.enabled = true ∧ ch.source = x) .badChannel <| demand (more = true) .badChannel <|
    demand (peerAbsentOn ch s = false) .peerAbsent <| demand (ch.outstanding < ch.depth) .noCredit k

/-- POST's reply channel is ENABLED and sourced by the posting channel's destination, when one is given (R59). -/
def replyUsable (c : ChanNo) (reply : Option ChanNo) (s : State) : Bool :=
  match reply with
  | some r => (s.chan r).enabled && (s.chan r).source == chanDest (s.chan c)
  | none => true

/-- POST (handle, channel, optional reply channel) (R59, R60). -/
def postRequest (x : Side) (args : List Byte) (s : State) : Verdict :=
  whenPermitted .post x s <| withChan (arg8 args 2) fun c =>
    demandSome (replyOfByte (arg8 args 3)) .range fun reply =>
      withHeld x (argHalf args 0) s fun i h =>
        demand (h.buf.pins = 0 ∧ h.buf.filling = false) .recordBusy <|
          withRoom x c (replyUsable c reply s) s <|
            .accept [BitVec.ofNat 8 (s.chan c).queue.length] (placeOn i h c reply s)

/-- RETURN (handle) (R64, R65). -/
def returnRequest (x : Side) (args : List Byte) (s : State) : Verdict :=
  whenPermitted .ret x s <| withHeld x (argHalf args 0) s fun i h =>
    demand (h.buf.pins = 0 ∧ h.buf.filling = false) .recordBusy <|
      demandSome h.buf.reply .noReply fun r =>
        withRoom x r true s <|
          .accept [BitVec.ofNat 8 r.val, BitVec.ofNat 8 (s.chan r).queue.length] (placeOn i h r none s)

/-! ## The claim family -/

/-- The lease a claim grants (R84): none from a channel with lease time 0. -/
def grantLease (leaseTime : Nat) : Option Lease := if leaseTime = 0 then none else some { remaining := leaseTime, due := false }

/-- The claim of queued record `i` from channel `c` by side `x` (R68). -/
def claimRecord (x : Side) (c : ChanNo) (i : RecIdx) (q : Queued) (s : State) : State :=
  let ch := s.chan c
  let t := s.setChan c { ch with queue := ch.queue.erase i }
  moveCharge ch.source x q.buf.segs.length
    (setHeld i { holder := x, origin := some c, lease := grantLease ch.leaseTime, buf := q.buf } t)

/-- The claim layout (R69, R195). -/
def claimReport (s : State) (c : ChanNo) (i : RecIdx) (b : Buffer) : List Byte :=
  half16 (currentHandle s i) ++ le16 b.length ++ le16 b.capacity ++ half16 b.tag
    ++ [flagByte b.reply.isSome, BitVec.ofNat 8 c.val]

/-- Record `i`, found in the queue of channel `c`, is claimed and reported; `t` is the state the claim acts on. A record in a queue is
QUEUED (R48), so the last case does not arise. -/
def claimFrom (x : Side) (c : ChanNo) (i : RecIdx) (t : State) : Verdict :=
  match (t.entry i).custody with
  | .queued q => .accept (claimReport t c i q.buf) (claimRecord x c i q t)
  | _ => .refuse .empty

/-- The record CLAIM takes: the head of the queue (R67). -/
def headOf (c : ChanNo) (s : State) : Option RecIdx := (s.chan c).queue.head?

/-- The tag of a queued record. -/
def tagOf (s : State) (i : RecIdx) : Option Half := (s.entry i).custody.buf?.map Buffer.tag

/-- The record CLAIMTAG takes: the one nearest the head whose tag equals the argument (R70). -/
def tagMatch (c : ChanNo) (tag : Half) (s : State) : Option RecIdx :=
  (s.chan c).queue.find? fun i => tagOf s i == some tag

/-- The channel check of CLAIM and CLAIMTAG (R67). -/
def withClaimable (x : Side) (c : ChanNo) (s : State) (k : Verdict) : Verdict :=
  demand ((s.chan c).enabled = true ∧ chanDest (s.chan c) = x) .badChannel k

/-- CLAIM (channel) (R67, R68). -/
def claimRequest (x : Side) (args : List Byte) (s : State) : Verdict :=
  whenPermitted .claim x s <| withChan (arg8 args 0) fun c =>
    withClaimable x c s <| demandSome (headOf c s) .empty fun i => claimFrom x c i s

/-- CLAIMTAG (channel, tag) (R70). -/
def claimtagRequest (x : Side) (args : List Byte) (s : State) : Verdict :=
  whenPermitted .claimtag x s <| withChan (arg8 args 0) fun c =>
    withClaimable x c s <| demandSome (tagMatch c (argHalf args 2) s) .empty fun i => claimFrom x c i s

/-- Channel `c` is a candidate of CLAIMANY by side `x` (R71). -/
def candidate (x : Side) (s : State) (c : ChanNo) : Bool :=
  (s.chan c).enabled && chanDest (s.chan c) == x && !(s.chan c).queue.isEmpty

/-- The channels counting upward from `p`, `p` included, through 11 and then from 0 (R71). -/
def chanRotation (p : ChanNo) : List ChanNo := (List.finRange 12).map fun k => p + k

/-- No candidate has a higher priority than `c` (R71, first stage). -/
def topPriority (x : Side) (s : State) (c : ChanNo) : Bool :=
  (List.finRange 12).all fun d => !candidate x s d || decide ((s.chan d).priority ≤ (s.chan c).priority)

/-- The channel CLAIMANY chooses (R71): the first candidate of the highest priority present, counting from the requester's pointer. -/
def chosenChan (x : Side) (s : State) : Option ChanNo :=
  (chanRotation (s.rr.get x)).find? fun c => candidate x s c && topPriority x s c

/-- CLAIMANY (R71, R72): the pointer moves to the channel after the chosen one. -/
def claimanyRequest (x : Side) (_args : List Byte) (s : State) : Verdict :=
  whenPermitted .claimany x s <| demandSome (chosenChan x s) .empty fun c =>
    demandSome (headOf c s) .empty fun i => claimFrom x c i { s with rr := s.rr.set x (c + 1) }

/-! ## TALLY, CHANINFO, PURGE -/

/-- TALLY (channel) (R75). -/
def tallyRequest (x : Side) (args : List Byte) (s : State) : Verdict :=
  whenPermitted .tally x s <| withChan (arg8 args 0) fun c =>
    demand ((s.chan c).source = x) .badChannel <|
      .accept (le16 (s.chan c).tally) (s.setChan c { s.chan c with tally := 0 })

/-- The CHANINFO layout (R77, R196). -/
def chanReport (ch : Channel) : List Byte :=
  [flagByte ch.enabled, sideByte ch.source, BitVec.ofNat 8 ch.depth, BitVec.ofNat 8 ch.priority] ++ le16 ch.leaseTime
    ++ [flagByte ch.flush, BitVec.ofNat 8 ch.queue.length, BitVec.ofNat 8 (ch.outstanding - ch.queue.length), 0]
    ++ le16 ch.tally

/-- CHANINFO (channel) (R77). -/
def chaninfoRequest (x : Side) (args : List Byte) (s : State) : Verdict :=
  whenPermitted .chaninfo x s <| withChan (arg8 args 0) fun c => .accept (chanReport (s.chan c)) s

/-- PURGE (channel) (R78): no check after step 3. -/
def purgeRequest (x : Side) (args : List Byte) (s : State) : Verdict :=
  whenPermitted .purge x s <| withChan (arg8 args 0) fun c =>
    .accept [BitVec.ofNat 8 (s.chan c).queue.length] (purgeQueue c s)

def execChancfg (v : Via) (s : State) : Host.Outcome State Fault Refusal := .next (takeRequest (reqCode .chancfg) chancfgRequest v s)
def execChanon (v : Via) (s : State) : Host.Outcome State Fault Refusal := .next (takeRequest (reqCode .chanon) chanonRequest v s)
def execChanoff (v : Via) (s : State) : Host.Outcome State Fault Refusal := .next (takeRequest (reqCode .chanoff) chanoffRequest v s)
def execPost (v : Via) (s : State) : Host.Outcome State Fault Refusal := .next (takeRequest (reqCode .post) postRequest v s)
def execReturn (v : Via) (s : State) : Host.Outcome State Fault Refusal := .next (takeRequest (reqCode .ret) returnRequest v s)
def execClaim (v : Via) (s : State) : Host.Outcome State Fault Refusal := .next (takeRequest (reqCode .claim) claimRequest v s)
def execClaimtag (v : Via) (s : State) : Host.Outcome State Fault Refusal := .next (takeRequest (reqCode .claimtag) claimtagRequest v s)
def execClaimany (v : Via) (s : State) : Host.Outcome State Fault Refusal := .next (takeRequest (reqCode .claimany) claimanyRequest v s)
def execTally (v : Via) (s : State) : Host.Outcome State Fault Refusal := .next (takeRequest (reqCode .tally) tallyRequest v s)
def execChaninfo (v : Via) (s : State) : Host.Outcome State Fault Refusal := .next (takeRequest (reqCode .chaninfo) chaninfoRequest v s)
def execPurge (v : Via) (s : State) : Host.Outcome State Fault Refusal := .next (takeRequest (reqCode .purge) purgeRequest v s)

end Sys2Proof.Machine
end

