-- ==== Sys2Proof/Machine/Custody.lean ====
section
/-! DEFINITION. The Custody Table's requests (chapter 01): ALLOC, RETIRE, SETTAG, LOOKUP. -/

namespace Sys2Proof.Machine

/-- The buffer of a record just allocated (R19, R97). -/
def newBuffer (segs : List SegNo) (length : Nat) (tag : Half) (filling : Bool) : Buffer :=
  { segs := segs, length := length, tag := tag, reply := none, pins := 0, filling := filling }

/-- A record is taken from the head of the free-record list and `n` segments from the head of the free-segment list, HELD by `x` with no
origin, reply or lease, and `x` is charged; the POOL_LOW crossing is judged (R19, R31, R97). -/
def takeRecord (i : RecIdx) (x : Side) (n length : Nat) (tag : Half) (filling : Bool) (s : State) : State :=
  let segs := s.freeSegs.take n
  let t := addCharge x n (takeSegs n { s with freeRecs := s.freeRecs.tail })
  setHeld i { holder := x, origin := none, lease := none, buf := newBuffer segs length tag filling } t

/-- The resource checks OVER_QUOTA, NO_RECORD, NO_SPACE in their order (R18, R35), then `k` with the index at the head. -/
def withResources (x : Side) (n : Nat) (s : State) (k : RecIdx → Verdict) : Verdict :=
  demand (s.charge.get x + n ≤ s.quota.get x) .overQuota <|
    match s.freeRecs with
    | [] => .refuse .noRecord
    | i :: _ => demand (n ≤ s.freeSegs.length) .noSpace (k i)

/-- ALLOC (size, tag) (R18, R19). -/
def allocRequest (x : Side) (args : List Byte) (s : State) : Verdict :=
  let size := arg16 args 0
  whenPermitted .alloc x s <| demand (1 ≤ size ∧ size ≤ 4096) .range <|
    withResources x (segsFor size) s fun i =>
      .accept (half16 (currentHandle s i)) (takeRecord i x (segsFor size) 0 (argHalf args 2) false s)

/-- RETIRE (handle) (R20): a pinned record is RECORD_BUSY, a filling clone passes. -/
def retireRequest (x : Side) (args : List Byte) (s : State) : Verdict :=
  whenPermitted .retire x s <| withHeld x (argHalf args 0) s fun i h =>
    demand (h.buf.pins = 0) .recordBusy <| .accept [] (retirePath i s)

/-- SETTAG (handle, tag) (R24). -/
def settagRequest (x : Side) (args : List Byte) (s : State) : Verdict :=
  whenPermitted .settag x s <| withHeld x (argHalf args 0) s fun i _ =>
    .accept [] (mapBuf i (fun b => { b with tag := argHalf args 2 }) s)

/-- What an accepted LOOKUP reports of a record: the fields of R25 (`none` for one that is absent; the state is QUEUED when `waiting` is present)
and the handle of R6. -/
structure LookupReport where
  /-- The record's handle, formed from its current generation (R6). -/
  handle : Half
  /-- Present when HELD. -/
  holder : Option Side
  /-- The channel and the queue position, present when QUEUED. -/
  waiting : Option (ChanNo × Nat)
  origin : Option ChanNo
  reply : Option ChanNo
  length : Nat
  capacity : Nat
  tag : Half
  pins : Nat
  filling : Bool
  /-- The lease remaining, present when the record has a lease. -/
  lease : Option Nat
deriving DecidableEq, Repr

/-- The LOOKUP report of record `i`, HELD (R6, R25). -/
def heldReport (s : State) (i : RecIdx) (h : Held) : LookupReport :=
  { handle := currentHandle s i, holder := some h.holder, waiting := none, origin := h.origin, reply := h.buf.reply,
    length := h.buf.length, capacity := h.buf.capacity, tag := h.buf.tag, pins := h.buf.pins, filling := h.buf.filling,
    lease := h.lease.map Lease.remaining }

/-- The LOOKUP report of record `i`, QUEUED (R6, R25): no holder, origin channel or lease, pin count 0 and filling clear. -/
def queuedReport (s : State) (i : RecIdx) (q : Queued) : LookupReport :=
  { handle := currentHandle s i, holder := none, waiting := some (q.chan, (s.chan q.chan).queue.idxOf i), origin := none,
    reply := q.buf.reply, length := q.buf.length, capacity := q.buf.capacity, tag := q.buf.tag, pins := 0, filling := false,
    lease := none }

/-- The LOOKUP layout (R195, R196): the 16 bytes that carry R25's fields. They have no place for the report's handle, so a port does not
carry it (log 21, DESIGN CHOICE); it equals the request's own argument. -/
def lookupLayout (r : LookupReport) : List Byte :=
  [if r.waiting.isSome then 2 else 1, match r.holder with | some y => sideByte y | none => 0xFF, chanByte (r.waiting.map Prod.fst),
      match r.waiting with | some w => BitVec.ofNat 8 w.2 | none => 0xFF, chanByte r.origin, chanByte r.reply]
    ++ le16 r.length ++ le16 r.capacity ++ half16 r.tag
    ++ [BitVec.ofNat 8 r.pins, BitVec.ofNat 8 (r.filling.toNat + 2 * r.lease.isSome.toNat)]
    ++ le16 (r.lease.getD 0)

/-- LOOKUP (handle) (R25): steps 1, 2 and 4 only; no state changes. -/
def lookupRequest (x : Side) (args : List Byte) (s : State) : Verdict :=
  whenPermitted .lookup x s <| withCurrent (argHalf args 0) s fun i c =>
    match c with
    | .held h => .accept (lookupLayout (heldReport s i h)) s
    | .queued q => .accept (lookupLayout (queuedReport s i q)) s
    | .free => .refuse .badHandle

def execAlloc (v : Via) (s : State) : Host.Outcome State Fault Refusal := .next (takeRequest (reqCode .alloc) allocRequest v s)
def execRetire (v : Via) (s : State) : Host.Outcome State Fault Refusal := .next (takeRequest (reqCode .retire) retireRequest v s)
def execSettag (v : Via) (s : State) : Host.Outcome State Fault Refusal := .next (takeRequest (reqCode .settag) settagRequest v s)
def execLookup (v : Via) (s : State) : Host.Outcome State Fault Refusal := .next (takeRequest (reqCode .lookup) lookupRequest v s)

end Sys2Proof.Machine
end

