-- ==== Sys2Proof/Machine/Copy.lean ====
section
/-! DEFINITION. The Copy Engine (chapter 05): CLONE, the copy steps and the completion. -/

namespace Sys2Proof.Machine

/-- The segments a clone of a record of length `len` takes (R96): 1 when the length is 0. -/
def cloneSegs (len : Nat) : Nat := max 1 (segsFor len)

/-- An accepted CLONE of record `i` into record `c` by side `x` (R97). -/
def makeClone (x : Side) (i c : RecIdx) (b : Buffer) (s : State) : State :=
  let t := mapBuf i (fun b' => { b' with pins := b'.pins + 1 }) (takeRecord c x (cloneSegs b.length) b.length b.tag true s)
  { t with jobs := t.jobs ++ [{ source := i, clone := c, side := x }], progress := if s.jobs.isEmpty then 0 else s.progress }

/-- CLONE (handle) (R96, R97). -/
def cloneRequest (x : Side) (args : List Byte) (s : State) : Verdict :=
  whenPermitted .clone x s <| withHeld x (argHalf args 0) s fun i h =>
    demand (h.buf.filling = false) .recordBusy <| demand (s.jobs.length < 4) .queueFull <|
      withResources x (cloneSegs h.buf.length) s fun c =>
        .accept (half16 (currentHandle s c) ++ [BitVec.ofNat 8 s.jobs.length]) (makeClone x i c h.buf s)

/-- The length of a live record, 0 for a FREE one. -/
def lengthOf (s : State) (i : RecIdx) : Nat := ((s.entry i).custody.buf?.map Buffer.length).getD 0

/-- The steps a job takes: one per segment position that holds a byte below the source's length (R103). -/
def jobSteps (s : State) (j : Job) : Nat := segsFor (lengthOf s j.source)

/-- The store after the step at position `k` from source `src` to clone `dst` (R103): source bytes 128 k to the lesser of 128 k + 127 and
length − 1 at the same offsets of the clone. -/
def copySegment (m : Memory) (src dst : Buffer) (k : Nat) : Memory :=
  writeRun m dst (segBytes * k) (readRun m src (segBytes * k) (min segBytes (src.length - segBytes * k)))

/-- COPY_STEP: the next step of the active job (R103), taken whole or not at all: a step under way at device reset leaves no byte
(R109; log 22, DESIGN CHOICE). Without an active job, or with its steps all taken, none is due (log 8). -/
def copyStep (s : State) : State :=
  match s.jobs with
  | [] => s
  | j :: _ =>
    match (s.entry j.source).custody.buf?, (s.entry j.clone).custody.buf? with
    | some src, some dst =>
      if s.progress < jobSteps s j then
        { s with store := copySegment s.store src dst s.progress, progress := s.progress + 1 }
      else s
    | _, _ => s

/-- COPY_COMPLETION of the active job, due after its last step (R104, log 8). -/
def copyCompletion (s : State) : State :=
  match s.jobs with
  | [] => s
  | j :: rest =>
    if jobSteps s j ≤ s.progress then
      let t := unpin j.source (mapBuf j.clone (fun b => { b with filling := false }) s)
      latch j.side .copyDone { t with jobs := rest, progress := 0 }
    else s

def execClone (v : Via) (s : State) : Host.Outcome State Fault Refusal := .next (takeRequest (reqCode .clone) cloneRequest v s)
/-- COPY_STEP (R103). -/
def execCopyStep (s : State) : Host.Outcome State Fault Refusal := .next (copyStep s)
/-- COPY_COMPLETION (R104). -/
def execCopyCompletion (s : State) : Host.Outcome State Fault Refusal := .next (copyCompletion s)

end Sys2Proof.Machine
end

