-- ==== Sys2Proof/Machine/Data.lean ====
section
/-! DEFINITION. Record data access (chapter 07): SETLEN, WRITE, READ, OPEN, CLOSE and the aperture's reads and writes. -/

namespace Sys2Proof.Machine

/-- A write of the bytes `data` from offset `o` of record `i` (R137): the bytes are stored and the length becomes the greater of the old
length and the end offset. -/
def writeRecord (i : RecIdx) (b : Buffer) (o : Nat) (data : List Byte) (s : State) : State :=
  mapBuf i (fun b' => { b' with length := max b.length (o + data.length) }) { s with store := writeRun s.store b o data }

/-- SETLEN (handle, length) (R141). -/
def setlenRequest (x : Side) (args : List Byte) (s : State) : Verdict :=
  let len := arg16 args 2
  whenPermitted .setlen x s <| demand (len ≤ 4096) .range <| withHeld x (argHalf args 0) s fun i h =>
    demand (h.buf.pins = 0 ∧ h.buf.filling = false) .recordBusy <| demand (len ≤ h.buf.length) .range <|
      .accept (le16 len) (mapBuf i (fun b => { b with length := len }) s)

/-- WRITE (handle, offset, data) (R138, R139). -/
def writeRequest (x : Side) (args : List Byte) (s : State) : Verdict :=
  let o := arg16 args 2
  let data := args.drop (reqArgLen .write)
  whenPermitted .write x s <| demand (1 ≤ data.length) .range <| withHeld x (argHalf args 0) s fun i h =>
    demand (h.buf.pins = 0 ∧ h.buf.filling = false) .recordBusy <| demand (o ≤ h.buf.length) .range <|
      demand (o + data.length ≤ h.buf.capacity) .range <|
        .accept (le16 (max h.buf.length (o + data.length))) (writeRecord i h.buf o data s)

/-- READ (handle, offset, count) (R140). -/
def readRequest (x : Side) (args : List Byte) (s : State) : Verdict :=
  let o := arg16 args 2
  let count := arg16 args 4
  whenPermitted .read x s <| demand (1 ≤ count ∧ count ≤ 256) .range <| withHeld x (argHalf args 0) s fun _ h =>
    demand (h.buf.filling = false) .recordBusy <| demand (o + count ≤ h.buf.capacity) .range <|
      .accept (le16 h.buf.length ++ readRun s.store h.buf o count) s

/-- OPEN (handle) (R144). -/
def openRequest (x : Side) (args : List Byte) (s : State) : Verdict :=
  whenPermitted .openRec x s <| withHeld x (argHalf args 0) s fun i h =>
    demand (h.buf.filling = false) .recordBusy <|
      .accept (le16 h.buf.length ++ le16 h.buf.capacity) { s with aperture := some i }

/-- CLOSE (R145). -/
def closeRequest (x : Side) (_args : List Byte) (s : State) : Verdict :=
  whenPermitted .closeAp x s <| .accept [] { s with aperture := none }

/-- The record the aperture reaches, with its buffer (R143); none while unbound. -/
def boundRecord (s : State) : Option (RecIdx × Buffer) :=
  s.aperture.bind fun i => (s.entry i).custody.buf?.map fun b => (i, b)

/-- A local bus access completes with no LERR (R146); `data` is what a read returns. -/
def busDone (data : Option Word) (s : State) : State := { s with bus := some { lerr := false, data := data } }

/-- An aperture access is refused: zeros on a read, APERTURE_FAULT latched at LOCAL (R147, R148, R149). -/
def apertureFaulted (data : Option Word) (s : State) : State := busDone data (latch .loc .apertureFault s)

/-- The word a read of a bound record below its capacity returns, lane k from record offset a + k (R147). -/
def apertureWord (m : Memory) (b : Buffer) (a : Nat) : Word :=
  ofLanes (readByte m b a) (readByte m b (a + 1)) (readByte m b (a + 2)) (readByte m b (a + 3))

/-- A read of the word at aperture offset 4 × `word` (R147); zeros and no fault while nRESET is low (R193). -/
def apertureRead (word : BitVec 10) (s : State) : State :=
  let a := 4 * word.toNat
  if s.nRESET then
    match boundRecord s with
    | some (_, b) => if a < b.capacity then busDone (some (apertureWord s.store b a)) s else apertureFaulted (some 0) s
    | none => apertureFaulted (some 0) s
  else busDone (some 0) s

/-- The run of contiguous enabled lanes: the lowest enabled lane and how many follow it; none for a pattern with a gap or no lane
(R148). -/
def laneRun (be : BitVec 4) : Option (Nat × Nat) :=
  match be.toNat with
  | 0b0001 => some (0, 1) | 0b0010 => some (1, 1) | 0b0100 => some (2, 1) | 0b1000 => some (3, 1)
  | 0b0011 => some (0, 2) | 0b0110 => some (1, 2) | 0b1100 => some (2, 2)
  | 0b0111 => some (0, 3) | 0b1110 => some (1, 3)
  | 0b1111 => some (0, 4)
  | _ => none

/-- The bytes of `n` lanes of a word from lane `k` upward. -/
def laneBytes (w : Word) (k n : Nat) : List Byte := (List.range n).map fun j => lane w (k + j)

/-- What an aperture write stores, when all of R148 holds: the record, its buffer, the first record offset, the bytes. -/
def apertureStore (word : BitVec 10) (data : Word) (be : BitVec 4) (s : State) : Option (RecIdx × Buffer × Nat × List Byte) :=
  match boundRecord s, laneRun be with
  | some (i, b), some (k, n) =>
    let o := 4 * word.toNat + k
    if b.pins = 0 ∧ o ≤ b.length ∧ o + n ≤ b.capacity then some (i, b, o, laneBytes data k n) else none
  | _, _ => none

/-- A write of the word at aperture offset 4 × `word` (R148); dropped with no fault while nRESET is low (R193). -/
def apertureWrite (word : BitVec 10) (data : Word) (be : BitVec 4) (s : State) : State :=
  if s.nRESET then
    match apertureStore word data be s with
    | some (i, b, o, bytes) => busDone none (writeRecord i b o bytes s)
    | none => apertureFaulted none s
  else busDone none s

def execSetlen (v : Via) (s : State) : Host.Outcome State Fault Refusal := .next (takeRequest (reqCode .setlen) setlenRequest v s)
def execWrite (v : Via) (s : State) : Host.Outcome State Fault Refusal := .next (takeRequest (reqCode .write) writeRequest v s)
def execRead (v : Via) (s : State) : Host.Outcome State Fault Refusal := .next (takeRequest (reqCode .read) readRequest v s)
def execOpen (v : Via) (s : State) : Host.Outcome State Fault Refusal := .next (takeRequest (reqCode .openRec) openRequest v s)
def execClose (v : Via) (s : State) : Host.Outcome State Fault Refusal := .next (takeRequest (reqCode .closeAp) closeRequest v s)
/-- APERTURE_READ (R147): the byte enables have no effect on a read. -/
def execApertureRead (word : BitVec 10) (_be : BitVec 4) (s : State) : Host.Outcome State Fault Refusal := .next (apertureRead word s)
/-- APERTURE_WRITE (R148). -/
def execApertureWrite (word : BitVec 10) (data : Word) (be : BitVec 4) (s : State) : Host.Outcome State Fault Refusal :=
  .next (apertureWrite word data be s)

end Sys2Proof.Machine
end

