-- ==== Sys2Proof/Machine/Events.lean ====
section
/-! DEFINITION. The Event Unit's requests (chapter 08): EVENTS, ACK, EVMASK. -/

namespace Sys2Proof.Machine

/-- The EVENTS layout of side `x` (R159, R196). -/
def eventsReport (s : State) (x : Side) : List Byte :=
  setBytes (s.latched.get x) ++ setBytes (conditions s x) ++ setBytes (s.enables.get x) ++ [flagByte (s.line x)]

/-- EVENTS (R159). -/
def eventsRequest (x : Side) (_args : List Byte) (s : State) : Verdict := whenPermitted .events x s <| .accept (eventsReport s x) s

/-- ACK (mask) (R160): the named pending events are removed; conditions are not in the latched set. -/
def ackRequest (x : Side) (args : List Byte) (s : State) : Verdict :=
  let left := s.latched.get x &&& ~~~ setOfMask (argHalf args 0)
  whenPermitted .ack x s <| demand (maskInRange (argHalf args 0) = true) .range <|
    .accept (setBytes left) { s with latched := s.latched.set x left }

/-- EVMASK (mask) (R161): answered with the line as the EVMASK leaves it. -/
def evmaskRequest (x : Side) (args : List Byte) (s : State) : Verdict :=
  let t := { s with enables := s.enables.set x (setOfMask (argHalf args 0)) }
  whenPermitted .evmask x s <| demand (maskInRange (argHalf args 0) = true) .range <| .accept [flagByte (t.line x)] t

def execEvents (v : Via) (s : State) : Host.Outcome State Fault Refusal := .next (takeRequest (reqCode .events) eventsRequest v s)
def execAck (v : Via) (s : State) : Host.Outcome State Fault Refusal := .next (takeRequest (reqCode .ack) ackRequest v s)
def execEvmask (v : Via) (s : State) : Host.Outcome State Fault Refusal := .next (takeRequest (reqCode .evmask) evmaskRequest v s)

end Sys2Proof.Machine
end

