-- ==== Sys2Proof/Machine/Leases.lean ====
section
/-! DEFINITION. The Lease Timer (chapter 04): the prescaler, the tick, RENEW and the expiry. -/

namespace Sys2Proof.Machine

/-- One TCLK cycle (R82): the prescaler advances; the cycle that finds it at 1023 returns it to 0 and produces a tick. It runs from the end
of device reset, so not while nRESET is low. -/
def tclkCycle (s : State) : State :=
  if s.nRESET then
    { s with prescaler := s.prescaler + 1, ticksDue := if s.prescaler = 1023 then s.ticksDue + 1 else s.ticksDue }
  else s

/-- A lease at a tick (R85): a count of 2 or more falls by one; a count of 1 is reported as expired. Where a RENEW came between an earlier
tick's report and its taking, that tick's decrement is made first (R87; log 7). A further tick at a count of 1 whose report still waits adds
none: the two are one report (log 23, DESIGN CHOICE). -/
def tickLease (l : Lease) : Lease :=
  let n := if l.due ∧ 2 ≤ l.remaining then l.remaining - 1 else l.remaining
  if 2 ≤ n then { remaining := n - 1, due := false } else { remaining := n, due := true }

/-- An entry at a tick. -/
def tickEntry (e : Entry) : Entry :=
  match e.custody with
  | .held h => { e with custody := .held { h with lease := h.lease.map tickLease } }
  | _ => e

/-- A lease tick (R85), whatever produced it. -/
def tickAll (s : State) : State := { s with records := s.records.map tickEntry }

/-- LEASE_TICK (R82, R85): a tick the prescaler produced is taken. Where none stands produced, the command stands for the TCLK cycles up to
and including the one that produces the tick, which leave the prescaler at 0 (log 6). No tick comes while nRESET is low. -/
def leaseTick (s : State) : State :=
  if s.nRESET then
    tickAll (if s.ticksDue = 0 then { s with prescaler := 0 } else { s with ticksDue := s.ticksDue - 1 })
  else s

/-- The lease time of a channel, where there is an origin. -/
def originTime (s : State) (origin : Option ChanNo) : Nat :=
  match origin with
  | some c => (s.chan c).leaseTime
  | none => 0

/-- RENEW (handle) (R86, R87): the count is set to the origin channel's lease time; a tick reported at this record and not yet taken is still
to come. -/
def renewRequest (x : Side) (args : List Byte) (s : State) : Verdict :=
  whenPermitted .renew x s <| withHeld x (argHalf args 0) s fun i h =>
    demandSome h.lease .noLease fun l =>
      .accept (le16 (originTime s h.origin))
        (setHeld i { h with lease := some { l with remaining := originTime s h.origin } } s)

/-- Step 1 of an expiry (R89, R107): every job whose source is `i` is removed and its clone retired, in queue order. -/
def abortCopies (i : RecIdx) (s : State) : State :=
  let gone := s.jobs.filter fun j => j.source == i
  gone.foldl (fun t j => retirePath j.clone t) (removeJobs (fun j => j.source == i) s)

/-- The requeue at the head of the origin channel (R74): the reply channel is kept and the record is unpinned. -/
def requeue (i : RecIdx) (c : ChanNo) (b : Buffer) (s : State) : State :=
  let t := s.setEntry i { gen := (s.entry i).gen + 1, custody := .queued { chan := c, buf := { b with pins := 0 } } }
  t.setChan c { t.chan c with queue := i :: (t.chan c).queue }

/-- The expiry of record `i`, HELD with `h` and origin channel `c` (R89). -/
def expire (i : RecIdx) (h : Held) (c : ChanNo) (s : State) : State :=
  let t := unbindFrom i (abortCopies i s)
  let u := moveCharge h.holder (t.chan c).source h.buf.segs.length (requeue i c h.buf t)
  let v := if s.jobs.any (fun j => j.source == i) then latch h.holder .copyAborted u else u
  latch h.holder .leaseLost v

/-- LEASE_EXPIRY of record `i`: the tick's event at this record, due once a tick has reported it (R85). A count of 1 expires (R89); a count a
RENEW has raised since falls by one (R87). With nothing due nothing happens (log 8). -/
def leaseExpiry (i : RecIdx) (s : State) : State :=
  match (s.entry i).custody with
  | .held h =>
    match h.lease, h.origin with
    | some l, some c =>
      if l.due then
        if 2 ≤ l.remaining then setHeld i { h with lease := some { remaining := l.remaining - 1, due := false } } s
        else expire i h c s
      else s
    | _, _ => s
  | _ => s

def execRenew (v : Via) (s : State) : Host.Outcome State Fault Refusal := .next (takeRequest (reqCode .renew) renewRequest v s)
/-- TCLK_CYCLE (R82). -/
def execTclkCycle (s : State) : Host.Outcome State Fault Refusal := .next (tclkCycle s)
/-- LEASE_TICK (R85). -/
def execLeaseTick (s : State) : Host.Outcome State Fault Refusal := .next (leaseTick s)
/-- LEASE_EXPIRY of record `i` (R89). -/
def execLeaseExpiry (i : RecIdx) (s : State) : Host.Outcome State Fault Refusal := .next (leaseExpiry i s)

end Sys2Proof.Machine
end

