-- ==== Sys2Proof/Machine/Pool.lean ====
section
/-! DEFINITION. The Segment Allocator's requests (chapter 02): POOLINFO, QUOTA, WATERMARK. -/

namespace Sys2Proof.Machine

/-- The POOLINFO layout (R43, R196). -/
def poolReport (s : State) : List Byte :=
  le16 s.freeSegs.length ++ le16 s.freeRecs.length ++ le16 s.charge.host ++ le16 s.charge.loc
    ++ le16 s.quota.host ++ le16 s.quota.loc ++ le16 s.watermark

/-- POOLINFO (R43). -/
def poolinfoRequest (x : Side) (_args : List Byte) (s : State) : Verdict := whenPermitted .poolinfo x s <| .accept (poolReport s) s

/-- QUOTA (side, quota) (R37): answered with the named side's charge. -/
def quotaRequest (x : Side) (args : List Byte) (s : State) : Verdict :=
  whenPermitted .quota x s <| demandSome (sideOfByte (arg8 args 0)) .range fun y =>
    demand (arg16 args 2 ≤ 512) .range <|
      .accept (le16 (s.charge.get y)) { s with quota := s.quota.set y (arg16 args 2) }

/-- WATERMARK (level) (R39): answered with the free segment count; no crossing is judged. -/
def watermarkRequest (x : Side) (args : List Byte) (s : State) : Verdict :=
  whenPermitted .watermark x s <| demand (arg16 args 0 ≤ 512) .range <|
    .accept (le16 s.freeSegs.length) { s with watermark := arg16 args 0 }

def execPoolinfo (v : Via) (s : State) : Host.Outcome State Fault Refusal := .next (takeRequest (reqCode .poolinfo) poolinfoRequest v s)
def execQuota (v : Via) (s : State) : Host.Outcome State Fault Refusal := .next (takeRequest (reqCode .quota) quotaRequest v s)
def execWatermark (v : Via) (s : State) : Host.Outcome State Fault Refusal := .next (takeRequest (reqCode .watermark) watermarkRequest v s)

end Sys2Proof.Machine
end

