-- ==== Sys2Proof/Machine/Sessions.lean ====
section
/-! DEFINITION. The Session Controller (chapter 06): ATTACH, DETACH, EVICT, the sweep's steps and its completion. -/

namespace Sys2Proof.Machine

/-- An ATTACH from DETACHED (R115). -/
def attachSide (x : Side) (s : State) : State :=
  latch (peer x) .peerUp
    { s with session := s.session.set x .attached, latched := s.latched.set x 0, enables := s.enables.set x 0 }

/-- ATTACH (R115, R116): answered with the peer's session state; from ATTACHED nothing changes. -/
def attachRequest (x : Side) (_args : List Byte) (s : State) : Verdict :=
  whenPermitted .attach x s <|
    .accept [BitVec.ofNat 8 (sessionCode (s.session.get (peer x)))]
      (if s.session.get x = .detached then attachSide x s else s)

/-- DETACH (R117): answered at the start of the sweep. -/
def detachRequest (x : Side) (_args : List Byte) (s : State) : Verdict := whenPermitted .detach x s <| .accept [] (startSweep x s)

/-- EVICT (R118). -/
def evictRequest (x : Side) (_args : List Byte) (s : State) : Verdict :=
  whenPermitted .evict x s <| demand (s.session.host = .attached) .peerAbsent <| .accept [] (startSweep .host s)

/-- The sweep position after the step for index `i` (R122). -/
def sweepAfter (i : RecIdx) : SweepPos := if h : i.val + 1 < 128 then .next ⟨i.val + 1, h⟩ else .done

/-- The effect of side `x`'s sweep step at record `i` (R122, R123): retired if HELD by `x`, else passed by. -/
def sweepRecord (x : Side) (i : RecIdx) (s : State) : State :=
  match (s.entry i).custody with
  | .held h => if h.holder = x then retirePath i s else s
  | _ => s

/-- A step of side `x`'s sweep (R122). No step is due unless the walk stands at an index (log 8). -/
def sweepStep (x : Side) (s : State) : State :=
  match s.session.get x with
  | .sweeping (.next i) =>
    let t := sweepRecord x i s
    { t with session := t.session.set x (.sweeping (sweepAfter i)) }
  | _ => s

/-- The completion of side `x`'s sweep (R125, R126): the flush purge, DETACHED, PEER_GONE at the peer. It is due once the walk stands at END
(log 8). -/
def sweepCompletion (x : Side) (s : State) : State :=
  match s.session.get x with
  | .sweeping .done =>
    let t := flushPurge x s
    latch (peer x) .peerGone { t with session := t.session.set x .detached }
  | _ => s

def execAttach (v : Via) (s : State) : Host.Outcome State Fault Refusal := .next (takeRequest (reqCode .attach) attachRequest v s)
def execDetach (v : Via) (s : State) : Host.Outcome State Fault Refusal := .next (takeRequest (reqCode .detach) detachRequest v s)
def execEvict (v : Via) (s : State) : Host.Outcome State Fault Refusal := .next (takeRequest (reqCode .evict) evictRequest v s)
/-- SWEEP_STEP of side `x` (R122). -/
def execSweepStep (x : Side) (s : State) : Host.Outcome State Fault Refusal := .next (sweepStep x s)
/-- SWEEP_COMPLETION of side `x` (R126). -/
def execSweepCompletion (x : Side) (s : State) : Host.Outcome State Fault Refusal := .next (sweepCompletion x s)

end Sys2Proof.Machine
end

