-- ==== Sys2Proof/Machine/Link.lean ====
section
/-! DEFINITION. The Host Link Port (chapter 09): LINKCFG, FETCH, the frames that begin, are discarded, or carry an unknown code. -/

namespace Sys2Proof.Machine

/-- LINKCFG (mode) (R179): answered with the check mode after it. -/
def linkcfgRequest (x : Side) (args : List Byte) (s : State) : Verdict :=
  whenPermitted .linkcfg x s <| demandSome (flagOfByte (arg8 args 0)) .range fun m =>
    .accept [flagByte m] { s with checkMode := m }

/-- A request whose code is no request code is answered BAD_REQUEST at step 1 (R13, R195). -/
def unknownRequest (_x : Side) (_args : List Byte) (_s : State) : Verdict := .refuse .badRequest

/-- The checks and effect of each request (R195). -/
def handlerOf : Req → Handler
  | .attach => attachRequest | .detach => detachRequest | .evict => evictRequest
  | .alloc => allocRequest | .retire => retireRequest | .settag => settagRequest | .lookup => lookupRequest
  | .setlen => setlenRequest | .write => writeRequest | .read => readRequest | .clone => cloneRequest | .renew => renewRequest
  | .post => postRequest | .ret => returnRequest | .claim => claimRequest | .claimtag => claimtagRequest
  | .claimany => claimanyRequest | .tally => tallyRequest | .chaninfo => chaninfoRequest
  | .chancfg => chancfgRequest | .chanon => chanonRequest | .chanoff => chanoffRequest | .purge => purgeRequest
  | .poolinfo => poolinfoRequest | .quota => quotaRequest | .watermark => watermarkRequest
  | .events => eventsRequest | .ack => ackRequest | .evmask => evmaskRequest
  | .openRec => openRequest | .closeAp => closeRequest
  | .linkcfg => linkcfgRequest

/-- The request a code byte spells, for a code that no constructor of `Instr` fixes. -/
def handlerOfCode (code : Byte) : Handler :=
  match reqOfCode code with
  | some r => handlerOf r
  | none => unknownRequest

/-- The answer bytes a FETCH frame shifts out after the link status byte (R175, R176): the slot's answer, with its check byte in check
mode; NONE on an EMPTY slot. -/
def fetchBytes (s : State) : List Byte :=
  match s.slot with
  | .empty => [statusByte .none]
  | .ready a | .fetched a => if s.checkMode then a ++ [crc8 a] else a

/-- The slot after a FETCH frame (R170). -/
def slotFetched : Slot → Slot
  | .ready a => .fetched a
  | slot => slot

/-- OVERRUN after a FETCH frame (R170): cleared on a READY or FETCHED slot, as it was on an EMPTY one. -/
def overrunFetched (s : State) : Bool :=
  match s.slot with
  | .empty => s.overrun
  | _ => false

/-- The end of a FETCH frame (R175, R176): the bits after the code only clock the answer out. -/
def fetchFrame (bits : List Bool) (s : State) : State :=
  let t := closeFrame (8 + bits.length) (fetchBytes s) s
  if frameTaken s then { t with slot := slotFetched s.slot, overrun := overrunFetched s } else t

/-- The end of a frame whose HMOSI bits are all given: no whole byte (R166), FETCH, or a request frame by its first byte (R167). -/
def anyFrame (bits : List Bool) (s : State) : State :=
  match wholeBytes bits with
  | [] => closeFrame bits.length [] s
  | code :: _ =>
    if code = fetchCode then fetchFrame (bits.drop 8) s
    else takeRequest code (handlerOfCode code) (.host (bits.drop 8)) s

/-- The fall of nHCS (R165, R166, R168): the link status byte is taken as the state stands, and the frame is collected, or ignored where a
reset line is low. With nHCS low already no frame can begin (log 8). -/
def frameBegins (s : State) : State :=
  match s.rx with
  | .idle => { s with rx := rxNow s }
  | _ => s

def execLinkcfg (v : Via) (s : State) : Host.Outcome State Fault Refusal := .next (takeRequest (reqCode .linkcfg) linkcfgRequest v s)
/-- FETCH (R175, R176). -/
def execFetch (bits : List Bool) (s : State) : Host.Outcome State Fault Refusal := .next (fetchFrame bits s)
/-- REQUEST_FRAME_DISCARD (R171): a request frame over a READY slot is discarded; over another slot the same frame is decoded (R170). -/
def execRequestFrameDiscard (bits : List Bool) (s : State) : Host.Outcome State Fault Refusal := .next (anyFrame bits s)
/-- FRAME_BEGINS (R165). -/
def execFrameBegins (s : State) : Host.Outcome State Fault Refusal := .next (frameBegins s)
/-- UNKNOWN_REQUEST_CODE (R195). On the host link FETCH's code would make a FETCH frame (R167); a command with a known code acts as the
request that code spells (log 4). -/
def execUnknownRequestCode (code : Byte) (v : Via) (s : State) : Host.Outcome State Fault Refusal :=
  match v with
  | .host bits => .next (if code = fetchCode then fetchFrame bits s else takeRequest code (handlerOfCode code) v s)
  | .loc _ _ => .next (takeRequest code (handlerOfCode code) v s)

end Sys2Proof.Machine
end

