-- ==== Sys2Proof/Machine/Resets.lean ====
section
/-! DEFINITION. The reset lines: device reset (R27 and each chapter's values after reset), host link reset (R119, R180), and their ends. -/

namespace Sys2Proof.Machine

/-- What HMISO has carried of a frame in progress whose HMOSI bits so far are `bits` (R168, R169, R175, R176): the link status byte, then the
answer once the code of FETCH has arrived, else zeros. -/
def frameSent (st : Byte) (bits : List Bool) (s : State) : List Bool :=
  shiftOut bits.length (st :: if (wholeBytes bits).head? = some fetchCode then fetchBytes s else [])

/-- The receiver when a reset line falls: a frame in progress is abandoned (R166, R180, R182). -/
def abandonFrame (bits : List Bool) (s : State) : Receiver :=
  match s.rx with
  | .collecting st => .abandoned (frameSent st bits s)
  | r => r

/-- How the last bus access completed once nRESET has fallen: a REQ write held at the fall completes there with LERR (R193). -/
def heldFails (held : Option HeldWrite) (bus : Option BusAnswer) : Option BusAnswer :=
  match held with
  | some _ => some { lerr := true, data := none }
  | none => bus

/-- The fall of nRESET (R27, R44, R81, R95, R109, R133, R152, R164, R182, R193): every block returns to its reset state. A held REQ write completes
with LERR; its request, taken before the fall or not, leaves nothing. The Segment Store keeps its bytes (R29); the level of nHRST, a frame's
nHCS, what the pins have carried, the queue of commands and the draw counter are not the part's to reset (log 15). -/
def deviceResetFalls (bits : List Bool) (held : Option HeldWrite) (s : State) : State :=
  { State.reset with
    store := s.store
    rx := abandonFrame bits s
    shifted := s.shifted
    bus := heldFails held s.bus
    nRESET := false
    nHRST := s.nHRST
    freeCount := s.freeCount
    pending := s.pending }

/-- A held REQ write completes as usual (R186): its request is taken. -/
def completeWrite (held : Option HeldWrite) (s : State) : State :=
  match held with
  | some w => takeRequest w.code (handlerOfCode w.code) (.loc w.upper w.lanes) s
  | none => s

/-- The port's part of nHRST's fall (R180 steps 1 to 4). -/
def portReset (bits : List Bool) (s : State) : State :=
  { s with rx := abandonFrame bits s, slot := .empty, overrun := false, checkMode := false }

/-- The effect of nHRST's fall (R119, R180): the port is reset, and HOST's sweep starts if HOST is ATTACHED. -/
def hostLinkReset (bits : List Bool) (s : State) : State :=
  let t := portReset bits s
  if t.session.host = .attached then startSweep .host t else t

/-- A short pulse: one draw decides whether it is taken (R201, log 9). -/
def shortPulse (taken untaken : State → State) (s : State) : State :=
  let t := { s with freeCount := s.freeCount + 1 }
  if Config.shortPulseTaken s.freeCount then taken t else untaken t

/-- DEVICE_RESET (R27, R193, R201). A line that is low already does not fall (log 8). After a short pulse nRESET is high again; where it is not
taken, a held REQ write completes as usual (log 5). -/
def execDeviceReset (p : DeviceFall) (s : State) : Host.Outcome State Fault Refusal :=
  .next <|
    if s.nRESET then
      match p.pulse with
      | .full => deviceResetFalls p.bits p.held s
      | .short => shortPulse (fun t => { deviceResetFalls p.bits p.held t with nRESET := true }) (completeWrite p.held) s
    else s

/-- HOST_LINK_RESET (R180, R201). A line that is low already does not fall (log 8). After a short pulse nHRST is high again. -/
def execHostLinkReset (p : LinkFall) (s : State) : Host.Outcome State Fault Refusal :=
  .next <|
    if s.nHRST then
      match p.pulse with
      | .full => { hostLinkReset p.bits s with nHRST := false }
      | .short => shortPulse (hostLinkReset p.bits) id s
    else s

/-- NRESET_RISES (R182, R82): device reset ends; nothing else changes. -/
def execNresetRises (s : State) : Host.Outcome State Fault Refusal := .next { s with nRESET := true }

/-- NHRST_RETURNING_HIGH (R119, R180): no session and nothing at the port changes. -/
def execNhrstReturningHigh (s : State) : Host.Outcome State Fault Refusal := .next { s with nHRST := true }

end Sys2Proof.Machine
end

