-- ==== Sys2Proof/Machine/Window.lean ====
section
/-! DEFINITION. The Local Window's register accesses (chapter 10): ARG writes, reads, bus errors. -/

namespace Sys2Proof.Machine

/-- What a read of a register returns (R184, R185, R188, R189, R200). -/
def regRead (s : State) : Reg → Word
  | .arg n => s.args[n]
  | .req => ofLanes s.req 0 0 0
  | .stat => s.stat
  | .res n => s.res[n]
  | .wstat => wstat s

/-- A local bus access completes with LERR and no effect (R190); a read returns zero. -/
def busFailed (write : Bool) (s : State) : State :=
  { s with bus := some { lerr := true, data := if write then none else some 0 } }

/-- A bus write to ARG`n` (R185): the enabled lanes are stored; with LERR and no effect while nRESET is low (R193). -/
def argWrite (n : Fin 4) (data : Word) (be : BitVec 4) (s : State) : State :=
  if s.nRESET then busDone none { s with args := s.args.set n (mergeLanes s.args[n] data be) } else busFailed true s

/-- A read of the register half (R184, R190): the register, or zero with LERR at an undefined offset. -/
def registerRead (word : Nat) (s : State) : State :=
  match regAt word with
  | some r => busDone (some (regRead s r)) s
  | none => busFailed false s

/-- A write of the register half (R184, R190): ARG stores, REQ with lane 0 issues, everything else is LERR. -/
def registerWrite (a : BusAccess) (s : State) : State :=
  match regAt a.word.toNat with
  | some (.arg n) => argWrite n a.data a.be s
  | some .req =>
    if a.be.getLsbD 0 then
      takeRequest (lane a.data 0) (handlerOfCode (lane a.data 0)) (.loc (a.data.extractLsb' 8 24) (a.be.extractLsb' 1 3)) s
    else busFailed true s
  | _ => busFailed true s

/-- Any local bus access, decoded by its offset (R184, R193). -/
def busAccess (a : BusAccess) (s : State) : State :=
  if a.word.getLsbD 10 then
    if a.write then apertureWrite (a.word.setWidth 10) a.data a.be s else apertureRead (a.word.setWidth 10) s
  else if s.nRESET then
    if a.write then registerWrite a s else registerRead a.word.toNat s
  else busFailed a.write s

/-- ARG_WRITE (R185). -/
def execArgWrite (n : Fin 4) (data : Word) (be : BitVec 4) (s : State) : Host.Outcome State Fault Refusal := .next (argWrite n data be s)
/-- BUS_ERROR (R190). A command whose access is no error acts as the access it spells (log 4). -/
def execBusError (a : BusAccess) (s : State) : Host.Outcome State Fault Refusal := .next (busAccess a s)

end Sys2Proof.Machine
end

