-- ==== Sys2Proof/Machine/Dispatch.lean ====
section
/-! DEFINITION. The dispatch: one arm per command, each one call of the command's meaning. -/

namespace Sys2Proof.Machine

def exec (i : Instr) (s : State) : Host.Outcome State Fault Refusal :=
  match i with
  | .attach v => Sys2Proof.Machine.execAttach v s
  | .detach v => Sys2Proof.Machine.execDetach v s
  | .evict v => Sys2Proof.Machine.execEvict v s
  | .alloc v => Sys2Proof.Machine.execAlloc v s
  | .retire v => Sys2Proof.Machine.execRetire v s
  | .settag v => Sys2Proof.Machine.execSettag v s
  | .lookup v => Sys2Proof.Machine.execLookup v s
  | .setlen v => Sys2Proof.Machine.execSetlen v s
  | .write v => Sys2Proof.Machine.execWrite v s
  | .read v => Sys2Proof.Machine.execRead v s
  | .clone v => Sys2Proof.Machine.execClone v s
  | .renew v => Sys2Proof.Machine.execRenew v s
  | .post v => Sys2Proof.Machine.execPost v s
  | .ret v => Sys2Proof.Machine.execReturn v s
  | .claim v => Sys2Proof.Machine.execClaim v s
  | .claimtag v => Sys2Proof.Machine.execClaimtag v s
  | .claimany v => Sys2Proof.Machine.execClaimany v s
  | .tally v => Sys2Proof.Machine.execTally v s
  | .chaninfo v => Sys2Proof.Machine.execChaninfo v s
  | .chancfg v => Sys2Proof.Machine.execChancfg v s
  | .chanon v => Sys2Proof.Machine.execChanon v s
  | .chanoff v => Sys2Proof.Machine.execChanoff v s
  | .purge v => Sys2Proof.Machine.execPurge v s
  | .poolinfo v => Sys2Proof.Machine.execPoolinfo v s
  | .quota v => Sys2Proof.Machine.execQuota v s
  | .watermark v => Sys2Proof.Machine.execWatermark v s
  | .events v => Sys2Proof.Machine.execEvents v s
  | .ack v => Sys2Proof.Machine.execAck v s
  | .evmask v => Sys2Proof.Machine.execEvmask v s
  | .openRec v => Sys2Proof.Machine.execOpen v s
  | .closeAp v => Sys2Proof.Machine.execClose v s
  | .linkcfg v => Sys2Proof.Machine.execLinkcfg v s
  | .fetch bits => Sys2Proof.Machine.execFetch bits s
  | .requestFrameDiscard bits => Sys2Proof.Machine.execRequestFrameDiscard bits s
  | .argWrite n data be => Sys2Proof.Machine.execArgWrite n data be s
  | .busError a => Sys2Proof.Machine.execBusError a s
  | .apertureRead word be => Sys2Proof.Machine.execApertureRead word be s
  | .apertureWrite word data be => Sys2Proof.Machine.execApertureWrite word data be s
  | .deviceReset p => Sys2Proof.Machine.execDeviceReset p s
  | .hostLinkReset p => Sys2Proof.Machine.execHostLinkReset p s
  | .leaseTick => Sys2Proof.Machine.execLeaseTick s
  | .leaseExpiry r => Sys2Proof.Machine.execLeaseExpiry r s
  | .copyStep => Sys2Proof.Machine.execCopyStep s
  | .copyCompletion => Sys2Proof.Machine.execCopyCompletion s
  | .sweepStep x => Sys2Proof.Machine.execSweepStep x s
  | .sweepCompletion x => Sys2Proof.Machine.execSweepCompletion x s
  | .tclkCycle => Sys2Proof.Machine.execTclkCycle s
  | .nresetRises => Sys2Proof.Machine.execNresetRises s
  | .nhrstReturningHigh => Sys2Proof.Machine.execNhrstReturningHigh s
  | .frameBegins => Sys2Proof.Machine.execFrameBegins s
  | .unknownRequestCode code v => Sys2Proof.Machine.execUnknownRequestCode code v s

end Sys2Proof.Machine
end

