-- ==== Sys2Proof/Safety.lean ====
section
/-! DEFINITION. What the claims are stated in: how a request is accepted, and the invariants the spec's prose states of the whole part. -/

namespace Sys2Proof.Machine

/-! ## Requests that reach the check order -/

/-- The request `r` arrives by `v` and its port presents it to the check order with these argument bytes: no frame ignored or discarded,
nRESET high, P1 to P4 passed (R166, R171, R172, R186, R193). -/
abbrev Presents (v : Via) (r : Req) (s : State) (args : List Byte) : Prop := present v (reqCode r) s = .carried args

/-- The side's session lets its requests pass step 2 (R14), and the side may issue the request (R13). -/
abbrev Admitted (r : Req) (x : Side) (s : State) : Prop := reqOpenTo x r = true ∧ s.session.get x = .attached

/-- Record `i` is the record handle `h` names, its generation is current, and it is HELD with the fields `r` (R8, R15). -/
abbrev HeldAt (h : Half) (i : RecIdx) (r : Held) (s : State) : Prop :=
  handleIdx h = i ∧ handleGen h = (s.entry i).gen ∧ (s.entry i).custody = .held r

/-- Step 3 passes: the argument fields that do not depend on a record are within range (R12; the rule of each request). -/
abbrev ArgsInRange (r : Req) (args : List Byte) : Prop :=
  match r with
  | .alloc => 1 ≤ arg16 args 0 ∧ arg16 args 0 ≤ 4096
  | .setlen => arg16 args 2 ≤ 4096
  | .write => 1 ≤ (args.drop 4).length
  | .read => 1 ≤ arg16 args 4 ∧ arg16 args 4 ≤ 256
  | .post => (arg8 args 2).toNat ≤ 11 ∧ ((arg8 args 3).toNat ≤ 11 ∨ arg8 args 3 = 0xFF)
  | .claim | .claimtag | .tally | .chaninfo | .chanon | .chanoff | .purge => (arg8 args 0).toNat ≤ 11
  | .chancfg =>
    (arg8 args 0).toNat ≤ 11 ∧ (arg8 args 1).toNat ≤ 1 ∧ 1 ≤ (arg8 args 2).toNat ∧ (arg8 args 2).toNat ≤ 32 ∧
      (arg8 args 3).toNat ≤ 3 ∧ arg16 args 4 ≤ 4095 ∧ (arg8 args 6).toNat ≤ 1
  | .quota => (arg8 args 0).toNat ≤ 1 ∧ arg16 args 2 ≤ 512
  | .watermark => arg16 args 0 ≤ 512
  | .ack | .evmask => (argHalf args 0).extractLsb' 10 6 = 0
  | .linkcfg => (arg8 args 0).toNat ≤ 1
  | .attach | .detach | .evict | .retire | .settag | .lookup | .clone | .renew | .ret | .claimany | .poolinfo | .events | .openRec
  | .closeAp => True

/-- The command of a request. -/
def requestInstr : Req → Via → Instr
  | .attach => .attach | .detach => .detach | .evict => .evict
  | .alloc => .alloc | .retire => .retire | .settag => .settag | .lookup => .lookup | .setlen => .setlen
  | .write => .write | .read => .read | .clone => .clone | .renew => .renew
  | .post => .post | .ret => .ret | .claim => .claim | .claimtag => .claimtag | .claimany => .claimany
  | .tally => .tally | .chaninfo => .chaninfo
  | .chancfg => .chancfg | .chanon => .chanon | .chanoff => .chanoff | .purge => .purge
  | .poolinfo => .poolinfo | .quota => .quota | .watermark => .watermark
  | .events => .events | .ack => .ack | .evmask => .evmask
  | .openRec => .openRec | .closeAp => .closeAp
  | .linkcfg => .linkcfg

/-- The command of a REQ write. -/
def heldCommand (w : HeldWrite) : Instr :=
  match reqOfCode w.code with
  | some r => requestInstr r (.loc w.upper w.lanes)
  | none => .unknownRequestCode w.code (.loc w.upper w.lanes)

/-- The state after an accepted request: `u` is the state its effect leaves, and the port then holds OK and the result bytes. -/
abbrev acceptedWith (r : Req) (v : Via) (result : List Byte) (u : State) : State := answered v (reqCode r) .ok result u

/-- The state after a refused request: the port alone is changed (R17). -/
abbrev refusedWith (r : Req) (v : Via) (st : Status) (s : State) : State :=
  answered v (reqCode r) st [] (entered v (reqCode r) s)

/-- The frame that ends now is taken (R166): it began, or begins now, with both reset lines high. -/
abbrev FrameTaken (s : State) : Prop := frameTaken s = true

/-- The receiver once a reset line has fallen, `bits` the HMOSI bits so far of a frame in progress: a frame being collected is abandoned, HMISO having
carried a bit for each of them, of its link status byte and then of the answer if the first byte was FETCH's code, else zeros (R168, R169,
R175, R176, R180, R182). -/
def abandonedRx (bits : List Bool) (s : State) : Receiver :=
  match s.rx with
  | .collecting st =>
    let answer : List Byte :=
      match s.slot with
      | .empty => [0xFF]
      | .ready a | .fetched a => a ++ if s.checkMode = true then [crc8 a] else []
    .abandoned (shiftOut bits.length (st :: if (wholeBytes bits).head? = some 0x7F then answer else []))
  | r => r

/-! ## Derived views -/

/-- The segments of record `i`, none when FREE. -/
def segsOf (s : State) (i : RecIdx) : List SegNo := ((s.entry i).custody.buf?.map Buffer.segs).getD []

/-- The side charged for record `i` (R33). -/
def chargedSide (s : State) (i : RecIdx) : Option Side :=
  match (s.entry i).custody with
  | .free => none
  | .held h => some h.holder
  | .queued q => some (s.chan q.chan).source

/-- The segments charged to side `x` (R33). -/
def chargedSegs (s : State) (x : Side) : Nat :=
  (((List.finRange 128).filter fun i => chargedSide s i == some x).map fun i => (segsOf s i).length).sum

/-- Record `i` is HELD with origin channel `c`. -/
def heldFrom (s : State) (c : ChanNo) (i : RecIdx) : Bool :=
  match (s.entry i).custody with
  | .held h => h.origin == some c
  | _ => false

/-- Record `i` is HELD by side `x`. -/
def heldBy (s : State) (x : Side) (i : RecIdx) : Bool :=
  match (s.entry i).custody with
  | .held h => h.holder == x
  | _ => false

/-- The pin count of record `i`, 0 when FREE. -/
def pinsOf (s : State) (i : RecIdx) : Nat := ((s.entry i).custody.buf?.map Buffer.pins).getD 0

/-- Whether record `i` is a filling clone. -/
def fillingOf (s : State) (i : RecIdx) : Bool := ((s.entry i).custody.buf?.map Buffer.filling).getD false

/-! ## What an event does, as relations between the state before and the state after -/

/-- A set of events with one more event. -/
abbrev plus (m : EventSet) (e : Event) : EventSet := m ||| eventMask e

/-- The latched sets after the free segment count goes to `n`: POOL_OK at both sides when it rises across the watermark (R41). -/
def latchedAfterGive (s : State) (n : Nat) : Per EventSet :=
  if s.freeSegs.length < s.watermark ∧ s.watermark ≤ n then ⟨plus s.latched.host .poolOk, plus s.latched.loc .poolOk⟩ else s.latched

/-- The latched sets after the free segment count goes to `n`: POOL_LOW at both sides when it falls across the watermark (R40). -/
def latchedAfterTake (s : State) (n : Nat) : Per EventSet :=
  if s.watermark ≤ s.freeSegs.length ∧ n < s.watermark then ⟨plus s.latched.host .poolLow, plus s.latched.loc .poolLow⟩ else s.latched

/-- A channel after `n` of its records left its accounting, its tally saturating at 65535 (R56, R57, R58). -/
def settledBy (n : Nat) (ch : Channel) : Channel :=
  { ch with outstanding := ch.outstanding - n, tally := min 65535 (ch.tally + n) }

/-- An entry whose pin count fell by `n`. -/
def unpinnedBy (n : Nat) (e : Entry) : Entry := { e with custody := e.custody.mapBuf fun b => { b with pins := b.pins - n } }

/-- The jobs `p` names have left the copy queue: the others close up, each source is unpinned by one for each job, and progress is 0
when the active job was one of them (R105). `s` is the state before. -/
def JobsRemoved (p : Job → Bool) (s t : State) : Prop :=
  t.jobs = s.jobs.filter (fun j => !p j) ∧
  (∀ i, t.entry i = unpinnedBy (s.jobs.filter fun j => p j && j.source == i).length (s.entry i)) ∧
  t.progress = (if (s.jobs.head?.any p) = true then 0 else s.progress)

/-- R121: the start of side `x`'s sweep, and nothing else. -/
def SweepStarted (x : Side) (s t : State) : Prop :=
  t.session = s.session.set x (.sweeping (.next 0)) ∧ t.enables = s.enables.set x 0 ∧
  JobsRemoved (fun j => j.side == x) s t ∧
  t.aperture = (if x = .loc then none else s.aperture) ∧
  t = { s with session := t.session, enables := t.enables, jobs := t.jobs, records := t.records, progress := t.progress,
               aperture := t.aperture }

/-- R21: the retirement path of record `i`, HELD with the fields `h`, and nothing else. -/
def RetiredHeld (i : RecIdx) (h : Held) (s t : State) : Prop :=
  let gone (j : Job) : Bool := h.buf.filling && j.clone == i
  t.jobs = s.jobs.filter (fun j => !gone j) ∧
  t.progress = (if (s.jobs.head?.any gone) = true then 0 else s.progress) ∧
  t.aperture = (if s.aperture = some i then none else s.aperture) ∧
  (∀ c, t.chan c = if h.origin = some c then settledBy 1 (s.chan c) else s.chan c) ∧
  t.freeSegs = s.freeSegs ++ h.buf.segs ∧
  t.charge = s.charge.set h.holder (s.charge.get h.holder - h.buf.segs.length) ∧
  t.entry i = { gen := (s.entry i).gen + 1, custody := .free } ∧
  (∀ j, j ≠ i → t.entry j = unpinnedBy (s.jobs.filter fun k => gone k && k.source == j).length (s.entry j)) ∧
  t.freeRecs = s.freeRecs ++ [i] ∧
  t.latched = latchedAfterGive s (s.freeSegs.length + h.buf.segs.length) ∧
  t = { s with jobs := t.jobs, progress := t.progress, aperture := t.aperture, chans := t.chans, freeSegs := t.freeSegs,
               charge := t.charge, records := t.records, freeRecs := t.freeRecs, latched := t.latched }

/-- The records queued on the channels `gone` names, channels ascending, each queue head to tail. -/
def queuedOn (gone : ChanNo → Bool) (s : State) : List RecIdx :=
  ((List.finRange 12).filter gone).flatMap fun c => (s.chan c).queue

/-- R78, R125: every record queued on the channels `gone` names has left its queue and been retired, in that order, and nothing else. -/
def QueuesPurged (gone : ChanNo → Bool) (s t : State) : Prop :=
  let q := queuedOn gone s
  (∀ c, t.chan c = if gone c then { settledBy (s.chan c).queue.length (s.chan c) with queue := [] } else s.chan c) ∧
  (∀ i, t.entry i = if i ∈ q then { gen := (s.entry i).gen + 1, custody := .free } else s.entry i) ∧
  t.freeRecs = s.freeRecs ++ q ∧
  t.freeSegs = s.freeSegs ++ q.flatMap (segsOf s) ∧
  (∀ y, t.charge.get y =
    s.charge.get y - ((q.filter fun i => chargedSide s i == some y).map fun i => (segsOf s i).length).sum) ∧
  t.latched = latchedAfterGive s (s.freeSegs.length + (q.flatMap (segsOf s)).length) ∧
  t = { s with chans := t.chans, records := t.records, freeRecs := t.freeRecs, freeSegs := t.freeSegs, charge := t.charge,
               latched := t.latched }

/-- R60 steps 1 to 5, R65: record `i`, HELD with the fields `h`, stands at the tail of channel `c` with the reply channel given, and
nothing else has changed. -/
def RecordPlaced (i : RecIdx) (h : Held) (c : ChanNo) (reply : Option ChanNo) (s t : State) : Prop :=
  t.entry i = { gen := (s.entry i).gen, custody := .queued { chan := c, buf := { h.buf with reply := reply } } } ∧
  (∀ j, j ≠ i → t.entry j = s.entry j) ∧
  t.aperture = (if s.aperture = some i then none else s.aperture) ∧
  t.chan c = { s.chan c with queue := (s.chan c).queue ++ [i], outstanding := (s.chan c).outstanding + 1 } ∧
  (∀ d, d ≠ c → t.chan d = if h.origin = some d then settledBy 1 (s.chan d) else s.chan d) ∧
  t = { s with records := t.records, aperture := t.aperture, chans := t.chans }

/-- R68: record `i`, QUEUED with the fields `q`, is claimed by side `x` from channel `c`, whose queue becomes `rest`. -/
def claimedState (x : Side) (c : ChanNo) (i : RecIdx) (q : Queued) (rest : List RecIdx) (s : State) : State :=
  let n := q.buf.segs.length
  let ch := s.chan c
  { s with
    chans := s.chans.set c { ch with queue := rest }
    records := s.records.set i
      { s.entry i with
        custody := .held
          { holder := x, origin := some c,
            lease := if 1 ≤ ch.leaseTime then some { remaining := ch.leaseTime, due := false } else none, buf := q.buf } }
    charge := (s.charge.set (peer x) (s.charge.get (peer x) - n)).set x (s.charge.get x + n) }

/-- The claim layout (R69, R195). -/
def claimBytes (s : State) (c : ChanNo) (i : RecIdx) (b : Buffer) : List Byte :=
  half16 (handleOf (s.entry i).gen i) ++ le16 b.length ++ le16 (128 * b.segs.length) ++ half16 b.tag
    ++ [if b.reply.isSome then 1 else 0, BitVec.ofNat 8 c.val]

/-- The bytes of a run stand at their record offsets, and every other byte of the store is as it was. -/
def RunStored (b : Buffer) (o : Nat) (data : List Byte) (m m' : Memory) : Prop :=
  (∀ k : Nat, ∀ d, data[k]? = some d → ∀ a, recAddr b (o + k) = some a → m'.read a = d) ∧
  (∀ a, (∀ k < data.length, recAddr b (o + k) ≠ some a) → m'.read a = m.read a)

/-- The byte a read of record offset `o` returns (R136). -/
def byteAt (m : Memory) (b : Buffer) (o : Nat) : Byte :=
  if o < b.length then ((recAddr b o).map m.read).getD 0 else 0

/-- Lanes `lo` to `hi` of a write are enabled and no other (R148: "at least one byte lane is enabled, and the enabled lanes are
contiguous"). -/
def LanesEnabled (be : BitVec 4) (lo hi : Nat) : Prop :=
  lo ≤ hi ∧ hi < 4 ∧ ∀ k < 4, be.getLsbD k = decide (lo ≤ k ∧ k ≤ hi)

/-- R148: every condition of an accepted aperture write holds. -/
def ApertureAccepts (word : BitVec 10) (s : State) (i : RecIdx) (b : Buffer) (lo hi : Nat) (be : BitVec 4) : Prop :=
  s.aperture = some i ∧ (s.entry i).custody.buf? = some b ∧ b.pins = 0 ∧ LanesEnabled be lo hi ∧
  4 * word.toNat + lo ≤ b.length ∧ 4 * word.toNat + hi < b.capacity

/-! ## Invariants -/

/-- R2, R10: the free-record list holds the index of each FREE record exactly once and no other index. -/
abbrev FreeRecordsInv (s : State) : Prop :=
  s.freeRecs.Nodup ∧ ∀ i : RecIdx, i ∈ s.freeRecs ↔ (s.entry i).custody = .free

/-- R30: every segment is either in the free-segment list once or in the segment list of exactly one live record; each live record has 1
to 32 segments (R1). -/
abbrev SegmentsInv (s : State) : Prop :=
  (s.freeSegs ++ (List.finRange 128).flatMap (segsOf s)).Nodup ∧
  (s.freeSegs ++ (List.finRange 128).flatMap (segsOf s)).length = 512 ∧
  ∀ i : RecIdx, (s.entry i).custody ≠ .free → 1 ≤ (segsOf s i).length ∧ (segsOf s i).length ≤ 32

/-- R33: each charge is the number of segments charged to that side. -/
abbrev ChargesInv (s : State) : Prop := ∀ x : Side, s.charge.get x = chargedSegs s x

/-- R48: a channel's queue holds exactly the records QUEUED on it, each once. -/
abbrev QueuesInv (s : State) : Prop :=
  ∀ c : ChanNo, (s.chan c).queue.Nodup ∧
    ∀ i : RecIdx, i ∈ (s.chan c).queue ↔ ∃ q : Queued, (s.entry i).custody = .queued q ∧ q.chan = c

/-- R49: a channel's outstanding count is the records queued on it plus the records HELD with it as origin, and never exceeds its depth;
R47: a DISABLED channel's count is 0, and R53: an ENABLED channel is configured. -/
abbrev OutstandingInv (s : State) : Prop :=
  ∀ c : ChanNo,
    (s.chan c).outstanding = (s.chan c).queue.length + ((List.finRange 128).filter (heldFrom s c)).length ∧
    (s.chan c).outstanding ≤ (s.chan c).depth ∧ (s.chan c).depth ≤ 32 ∧
    ((s.chan c).enabled = false → (s.chan c).outstanding = 0) ∧ ((s.chan c).enabled = true → 1 ≤ (s.chan c).depth)

/-- R1, R45: the ranges of a channel's configuration and tally. -/
abbrev ChannelRangesInv (s : State) : Prop :=
  ∀ c : ChanNo, (s.chan c).priority ≤ 3 ∧ (s.chan c).leaseTime ≤ 4095 ∧ (s.chan c).tally ≤ 65535

/-- What R1, R3, R56, R83 and R99 say of the fields of a HELD record. -/
def heldOk (s : State) (h : Held) : Prop :=
  h.buf.length ≤ h.buf.capacity ∧ (h.buf.filling = true → h.buf.pins = 0) ∧
  match h.origin with
  | none => h.lease = none ∧ h.buf.reply = none
  | some c =>
    h.holder = chanDest (s.chan c) ∧ h.buf.filling = false ∧
    ∀ l, h.lease = some l → 1 ≤ l.remaining ∧ l.remaining ≤ (s.chan c).leaseTime

/-- What R4 says of the fields of a QUEUED record. -/
def queuedOk (q : Queued) : Prop := q.buf.length ≤ q.buf.capacity ∧ q.buf.pins = 0 ∧ q.buf.filling = false

/-- Every record's fields are as its state allows (R1 to R4, R83). -/
def RecordsInv (s : State) : Prop :=
  ∀ i : RecIdx,
    match (s.entry i).custody with
    | .free => True
    | .held h => heldOk s h
    | .queued q => queuedOk q

/-- R99, R100: at most four jobs, no two with one clone; each clone HELD and filling, each source HELD and not filling, both by the job's
side, whose session is ATTACHED; a pin count is the number of jobs naming the record; a filling clone without a job is held by a
sweeping side (R108). The active job's progress is at most its number of steps (R100, R103; log 24); with no job the model holds progress 0
(log 11's choice). -/
def JobsInv (s : State) : Prop :=
  s.jobs.length ≤ 4 ∧ (s.jobs.map Job.clone).Nodup ∧
  (∀ j ∈ s.jobs,
    (heldBy s j.side j.source = true ∧ fillingOf s j.source = false) ∧
    (heldBy s j.side j.clone = true ∧ fillingOf s j.clone = true) ∧
    s.session.get j.side = .attached ∧ lengthOf s j.clone = lengthOf s j.source) ∧
  (∀ i : RecIdx, pinsOf s i = (s.jobs.filter fun j => j.source == i).length) ∧
  (∀ i : RecIdx, ∀ x : Side, heldBy s x i = true → fillingOf s i = true →
    (s.jobs.any fun j => j.clone == i) = false → s.session.get x ≠ .attached) ∧
  (∀ j, s.jobs.head? = some j → s.progress ≤ jobSteps s j) ∧
  (s.jobs = [] → s.progress = 0)

/-- R143: the aperture is bound only to a record HELD by LOCAL that is not filling; R121: and only while LOCAL is ATTACHED. -/
def ApertureInv (s : State) : Prop :=
  ∀ i, s.aperture = some i → heldBy s .loc i = true ∧ fillingOf s i = false ∧ s.session.loc = .attached

/-- R122, R126: a DETACHED side holds no record, and a SWEEPING side none that its walk has passed. -/
def SessionsInv (s : State) : Prop :=
  ∀ x : Side, ∀ i : RecIdx, heldBy s x i = true →
    match s.session.get x with
    | .detached => False
    | .attached => True
    | .sweeping (.next p) => p ≤ i
    | .sweeping .done => False

/-- R126: no flush-on-detach channel holds a record while its destination is DETACHED. -/
def FlushInv (s : State) : Prop :=
  ∀ c : ChanNo, (s.chan c).flush = true → s.session.get (chanDest (s.chan c)) = .detached → (s.chan c).queue = []

/-- R153: APERTURE_FAULT is never latched at HOST, and no condition is ever latched; R157: a side that is not ATTACHED has every enable
clear. -/
def EventsInv (s : State) : Prop :=
  s.latched.host &&& eventMask .apertureFault = 0 ∧
  ∀ x : Side, s.latched.get x &&& (eventMask .claimable ||| eventMask .tally) = 0 ∧
    (s.session.get x ≠ .attached → s.enables.get x = 0)

/-- R170: while OVERRUN is set the slot is READY; R176: check mode is off and OVERRUN is clear while the slot is EMPTY. -/
def PortInv (s : State) : Prop :=
  (s.overrun = true → ∃ a, s.slot = .ready a) ∧ (s.slot = .empty → s.checkMode = false ∧ s.overrun = false)

/-- R166, R180, R182: no frame is being collected while a reset line is low. -/
def ReceiverInv (s : State) : Prop := s.nRESET = false ∨ s.nHRST = false → ∀ b, s.rx ≠ .collecting b

/-- R28: the store holds bytes at addresses 0 to 65535 only, in canonical form. -/
def StoreInv (s : State) : Prop := Memory.wf s.store ∧ ∀ c ∈ s.store, c.1 < 65536

/-- R35, R39: quotas and watermark are 0 to 512. -/
def PoolRangesInv (s : State) : Prop := s.quota.host ≤ 512 ∧ s.quota.loc ≤ 512 ∧ s.watermark ≤ 512

/-- R44, R114, R170, R182, R193: while nRESET is low both sides are DETACHED and the slot is EMPTY. -/
def ResetHeldInv (s : State) : Prop := s.nRESET = false → s.session = ⟨.detached, .detached⟩ ∧ s.slot = .empty

/-- Everything the spec's prose states of every state of the part. -/
structure Inv (s : State) : Prop where
  freeRecords : FreeRecordsInv s
  segments : SegmentsInv s
  charges : ChargesInv s
  queues : QueuesInv s
  outstanding : OutstandingInv s
  channelRanges : ChannelRangesInv s
  records : RecordsInv s
  jobs : JobsInv s
  aperture : ApertureInv s
  sessions : SessionsInv s
  flush : FlushInv s
  events : EventsInv s
  port : PortInv s
  receiver : ReceiverInv s
  store : StoreInv s
  poolRanges : PoolRangesInv s
  resetHeld : ResetHeldInv s

end Sys2Proof.Machine
end

