-- ==== Sys2Proof/Certificates/Slice0/Obligations.lean ====
section
/-! DEFINITION. The statements for the provers. Each is a proposition about the machine; none is proved here. -/

open Sys2Proof Sys2Proof.Machine

/-! ## The machine as a whole -/

/-- A step takes the command at the front of the queue and runs it on the rest; with an empty queue the block idles (the model's choice,
log 13). -/
def Obligations.StepRunsTheFrontCommand : Prop :=
  (∀ (c : Instr) (rest : List Instr) (s : State), s.pending = c :: rest → step s = exec c { s with pending := rest }) ∧
  (∀ s : State, s.pending = [] → step s = .next s)

/-- Every command is answered with a next state, whatever the state, and no command touches the queue. The model's reading: no rule stops the part
(log 17), a command not due changes nothing (log 8), and device reset keeps the queue (log 15); that every request is answered, every access
completes and every frame ends is R12, R170, R186 and R190. -/
def Obligations.EveryCommandAnswersNext : Prop :=
  ∀ (c : Instr) (s : State), ∃ t, exec c s = .next t ∧ t.pending = s.pending

/-- The values device reset leaves (R10, R27, R30, R33, R35, R39, R44, R45, R81, R95, R109, R114, R133, R143, R152, R153, R164, R170, R182,
R193). The fields the spec gives no reset value (logs 6, 9, 10, 11) are not named. -/
def Obligations.DeviceResetValues : Prop :=
  (∀ i : RecIdx, State.reset.entry i = { gen := 0, custody := .free }) ∧
  State.reset.freeRecs = List.finRange 128 ∧ State.reset.freeSegs = List.finRange 512 ∧
  State.reset.charge = ⟨0, 0⟩ ∧ State.reset.quota = ⟨512, 512⟩ ∧ State.reset.watermark = 0 ∧
  (∀ c : ChanNo, State.reset.chan c =
    { enabled := false, source := .host, depth := 0, priority := 0, leaseTime := 0, flush := false, queue := [],
      outstanding := 0, tally := 0 }) ∧
  State.reset.rr = ⟨0, 0⟩ ∧ State.reset.prescaler = 0 ∧ State.reset.jobs = [] ∧
  State.reset.session = ⟨.detached, .detached⟩ ∧ State.reset.latched = ⟨0, 0⟩ ∧ State.reset.enables = ⟨0, 0⟩ ∧
  State.reset.slot = .empty ∧ State.reset.overrun = false ∧ State.reset.checkMode = false ∧
  (∀ n : Fin 4, State.reset.args[n] = 0 ∧ State.reset.res[n] = 0) ∧ State.reset.req = 0 ∧ State.reset.stat = 0 ∧
  State.reset.aperture = none ∧ wstat State.reset = 0 ∧ linkStatus State.reset = 0 ∧
  (∀ x : Side, State.reset.line x = false ∧ conditions State.reset x = 0)

/-- The state after reset meets every invariant of Sys2Proof/Safety.lean (its progress 0 is log 11's choice). -/
def Obligations.ResetMeetsTheInvariant : Prop := Inv State.reset

/-- Every step keeps every invariant the spec's prose states of the part: the lists, segments, charges, queues, counts, records, copy queue,
aperture, sessions, event sets, port, store and ranges (the progress clauses with logs 11 and 24). -/
def Obligations.StepKeepsTheInvariant : Prop := ∀ s t : State, Inv s → step s = .next t → Inv t

/-- Every step keeps the store in canonical form, with no address outside its 65,536 bytes (R28). -/
def Obligations.StepKeepsTheStoreCanonical : Prop := ∀ s t : State, StoreInv s → step s = .next t → StoreInv t

/-- Every step keeps: OVERRUN only over a READY slot and check mode off on an EMPTY one (R170, R176), and no frame collected while a reset
line is low (R166, R180, R182); and, on their own, APERTURE_FAULT never latched at HOST, no condition latched, and every enable of a side that
is not ATTACHED clear (R153, R156, R157). -/
def Obligations.StepKeepsThePortAndTheEventSets : Prop :=
  (∀ s t : State, PortInv s → ReceiverInv s → step s = .next t → PortInv t ∧ ReceiverInv t) ∧
  (∀ s t : State, EventsInv s → step s = .next t → EventsInv t)

/-- A line is asserted exactly while an enabled event is pending or an enabled condition holds (R158), CLAIMABLE while some ENABLED channel
destined for the side has a record queued, TALLY while some channel it sources has a tally above 0 (R80). -/
def Obligations.LineFollowsEnabledEvents : Prop :=
  ∀ (s : State) (x : Side), s.line x = true ↔
    (∃ n < 10, (s.enables.get x).getLsbD n = true ∧ (s.latched.get x).getLsbD n = true) ∨
    ((s.enables.get x).getLsbD 0 = true ∧
      ∃ c : ChanNo, (s.chan c).enabled = true ∧ (s.chan c).source ≠ x ∧ (s.chan c).queue ≠ []) ∨
    ((s.enables.get x).getLsbD 1 = true ∧ ∃ c : ChanNo, (s.chan c).source = x ∧ 0 < (s.chan c).tally)

/-! ## The ports -/

/-- A HOST frame of a request HOST may issue, with no more than WRITE's 256 data bytes (the rest is `PortAnswersItsOwnChecks`), its bytes sent most significant bit first, its check byte added when one is required and up to seven bits of a
last incomplete byte after it, reaches the check order with exactly the argument bytes sent (R165, R166, R172, R173, R178). -/
def Obligations.HostFrameReachesItsRequest : Prop :=
  ∀ (r : Req) (args : List Byte) (tail : List Bool) (s : State),
    FrameTaken s → (∀ a, s.slot ≠ .ready a) → reqOpenTo .host r = true → reqArgLen r ≤ args.length →
    (r = .write → args.length ≤ 260) → tail.length < 8 →
    let check := if s.checkMode = true ∨ r = .linkcfg then [crc8 (reqCode r :: args)] else []
    Presents (.host ((args ++ check).flatMap byteBits ++ tail)) r s args

/-- A REQ write with lane 0 enabled, outside reset, reaches the check order with the sixteen bytes of ARG0 to ARG3, whatever lanes 1 to 3
carry (R186, R194). -/
def Obligations.LocalWriteReachesItsRequest : Prop :=
  ∀ (r : Req) (upper : BitVec 24) (lanes : BitVec 3) (s : State), s.nRESET = true →
    ∃ args : List Byte, Presents (.loc upper lanes) r s args ∧ args.length = 16 ∧
      ∀ (n : Fin 4) (k : Nat), k < 4 → args[4 * n.val + k]? = some (lane s.args[n] k)

/-- P1 to P4 (R172). A frame that fails one is answered by the port and not carried inward; a frame of an unknown or LOCAL-only code that passes
P1 and P2 is answered BAD_REQUEST. -/
def Obligations.PortAnswersItsOwnChecks : Prop :=
  (∀ (r : Req) (bits : List Bool) (s : State), FrameTaken s → (∀ a, s.slot ≠ .ready a) →
    let v := Via.host bits
    let body := wholeBytes bits
    let need := s.checkMode = true ∨ r = .linkcfg
    let good := body.getLast? = some (crc8 (reqCode r :: body.dropLast))
    let argBytes := if s.checkMode = true ∨ r = .linkcfg then body.length - 1 else body.length
    (need → body = [] → exec (requestInstr r v) s = .next (refusedWith r v .frameShort s)) ∧
    (need → body ≠ [] → ¬good → exec (requestInstr r v) s = .next (refusedWith r v .badCheck s)) ∧
    ((need → body ≠ [] ∧ good) →
      (reqOpenTo .host r = true → argBytes < reqArgLen r →
        exec (requestInstr r v) s = .next (refusedWith r v .frameShort s)) ∧
      (r = .write → 260 < argBytes → exec (requestInstr r v) s = .next (refusedWith r v .range s)) ∧
      (reqOpenTo .host r = false → exec (requestInstr r v) s = .next (refusedWith r v .badRequest s)))) ∧
  (∀ (code : Byte) (bits : List Bool) (s : State), FrameTaken s → (∀ a, s.slot ≠ .ready a) →
    unknownCode code (.host bits) = true →
    let v := Via.host bits
    let body := wholeBytes bits
    let good := body.getLast? = some (crc8 (code :: body.dropLast))
    let answer (st : Status) := exec (.unknownRequestCode code v) s = .next (answered v code st [] (entered v code s))
    (s.checkMode = true → body = [] → answer .frameShort) ∧
    (s.checkMode = true → body ≠ [] → ¬good → answer .badCheck) ∧
    ((s.checkMode = true → body ≠ [] ∧ good) → answer .badRequest))

/-- A request frame taken while the slot is READY is discarded unexamined: OVERRUN is set, the status byte and zeros are shifted out, and
nothing else changes, whatever its code (R171, R169). -/
def Obligations.ReadySlotDiscardsFrames : Prop :=
  ∀ (bits : List Bool) (s : State) (st : Byte) (a : List Byte), rxNow s = .collecting st → s.slot = .ready a →
    let discarded (edges : Nat) : State :=
      { s with rx := .idle, shifted := some (shiftOut edges [st]), overrun := true }
    (∀ r : Req, exec (requestInstr r (.host bits)) s = .next (discarded (8 + bits.length))) ∧
    (∀ code : Byte, unknownCode code (.host bits) = true →
      exec (.unknownRequestCode code (.host bits)) s = .next (discarded (8 + bits.length))) ∧
    (notFetchFrame bits = true → 8 ≤ bits.length →
      exec (.requestFrameDiscard bits) s = .next (discarded bits.length))

/-- A frame that is not taken changes no state but the receiver: HMISO stayed high-impedance through one that began under a reset line, and carried
through one that a reset line abandoned what it had carried by then; a taken frame of zero whole bytes changes no state but the receiver
(R166, R168, R180, R182). A REQUEST_FRAME_DISCARD over a slot that is not READY, or of a FETCH frame, and an UNKNOWN_REQUEST_CODE of a known
code stand for the frame they spell (log 4). -/
def Obligations.UntakenFramesChangeNothing : Prop :=
  (∀ s : State, ¬FrameTaken s ↔ rxNow s = .ignoring ∨ ∃ sent, rxNow s = .abandoned sent) ∧
  (∀ (bits : List Bool) (s : State) (carried : Option (List Bool)),
    (rxNow s = .ignoring ∧ carried = none ∨ ∃ sent, rxNow s = .abandoned sent ∧ carried = some sent) →
    let ignored : State := { s with rx := .idle, shifted := carried }
    (∀ r : Req, exec (requestInstr r (.host bits)) s = .next ignored) ∧
    (∀ code : Byte, exec (.unknownRequestCode code (.host bits)) s = .next ignored) ∧
    exec (.fetch bits) s = .next ignored ∧ exec (.requestFrameDiscard bits) s = .next ignored) ∧
  (∀ (bits : List Bool) (s : State) (st : Byte), rxNow s = .collecting st → bits.length < 8 →
    exec (.requestFrameDiscard bits) s = .next { s with rx := .idle, shifted := some (shiftOut bits.length [st]) })

/-- A FETCH frame on a READY or FETCHED slot shifts out the status byte, the answer, its check byte in check mode, then zeros; the slot becomes
FETCHED, keeps the answer, and OVERRUN is cleared, whatever the frame's length (R175). On an EMPTY slot it shifts out the status byte, NONE with
no check byte, then zeros, and changes no state of the port: the slot stays EMPTY, OVERRUN clear and check mode off (R176). -/
def Obligations.FetchShiftsTheAnswer : Prop :=
  (∀ (bits : List Bool) (s : State) (st : Byte) (a : List Byte), rxNow s = .collecting st →
     (s.slot = .ready a ∨ s.slot = .fetched a) →
     exec (.fetch bits) s = .next
       { s with
         rx := .idle
         shifted := some (shiftOut (8 + bits.length) (st :: a ++ if s.checkMode = true then [crc8 a] else []))
         slot := .fetched a
         overrun := false }) ∧
  (∀ (bits : List Bool) (s : State) (st : Byte), PortInv s → rxNow s = .collecting st → s.slot = .empty →
     s.checkMode = false ∧ s.overrun = false ∧
     exec (.fetch bits) s = .next { s with rx := .idle, shifted := some (shiftOut (8 + bits.length) [st, 0xFF]) })

/-- The fall of nHCS: with both reset lines high the frame is collected and its status byte is the state of slot, OVERRUN, HOST's session, HIRQ
and check mode at that fall, bit 0 clear; with a reset line low the frame is ignored (R165, R166, R168, R199). With nHCS low already nothing
changes (log 8). -/
def Obligations.FrameBeginsTakesTheStatus : Prop :=
  (∀ s : State, s.rx = .idle →
     (s.nRESET = true → s.nHRST = true → ∃ st : Byte,
       exec .frameBegins s = .next { s with rx := .collecting st } ∧
       (s.slot = .empty → st.extractLsb' 6 2 = 0) ∧ (∀ a, s.slot = .ready a → st.extractLsb' 6 2 = 1) ∧
       (∀ a, s.slot = .fetched a → st.extractLsb' 6 2 = 2) ∧ st.getLsbD 5 = s.overrun ∧
       (s.session.host = .detached → st.extractLsb' 3 2 = 0) ∧ (s.session.host = .attached → st.extractLsb' 3 2 = 1) ∧
       (∀ p, s.session.host = .sweeping p → st.extractLsb' 3 2 = 2) ∧
       st.getLsbD 2 = s.line .host ∧ st.getLsbD 1 = s.checkMode ∧ st.getLsbD 0 = false) ∧
     (s.nRESET = false ∨ s.nHRST = false → exec .frameBegins s = .next { s with rx := .ignoring })) ∧
  (∀ s : State, s.rx ≠ .idle → exec .frameBegins s = .next s)

/-- A refused request leaves the state as it was; its port alone changes. At the Host Link Port the answer is the status code alone and the slot
becomes READY; at the Local Window STAT holds the status code and the echo and RES0 to RES3 are zero, and the REQ write completes (R17). -/
def Obligations.RefusedRequestChangesOnlyItsPort : Prop :=
  ∀ (r : Req) (v : Via) (args : List Byte) (s : State) (st : Status), Presents v r s args →
    handlerOf r v.side args (entered v (reqCode r) s) = .refuse st →
    match v with
    | .host bits => ∃ status : Byte, rxNow s = .collecting status ∧
        exec (requestInstr r v) s = .next
          { s with rx := .idle, shifted := some (shiftOut (8 + bits.length) [status]), slot := .ready [statusByte st] }
    | .loc _ _ =>
        exec (requestInstr r v) s = .next
          { s with req := reqCode r, bus := some { lerr := false, data := none },
                   stat := ofLanes (statusByte st) (reqCode r) 0 0, res := #v[0, 0, 0, 0] }

/-- Where an answer stands. The Host Link Port: the status code, then the result bytes, in a READY slot (R174). The Local Window: lane 0 of STAT the
status code, lane 1 the code written, lanes 2 and 3 zero, and result byte k in lane k mod 4 of RES(k / 4), zero where the layout has none
(R187, R194, R200). -/
def Obligations.AnswersStandInTheirPlaces : Prop :=
  ∀ (code : Byte) (st : Status) (result : List Byte) (s : State),
    (∀ bits, answered (.host bits) code st result s = { s with slot := .ready (statusByte st :: result) }) ∧
    (∀ upper lanes, ∃ (stat : Word) (res : Vector Word 4),
      answered (.loc upper lanes) code st result s = { s with stat := stat, res := res } ∧
      lane stat 0 = statusByte st ∧ lane stat 1 = code ∧ lane stat 2 = 0 ∧ lane stat 3 = 0 ∧
      ∀ (n : Fin 4) (k : Nat), k < 4 → lane res[n] k = (result[4 * n.val + k]?).getD 0)

/-- Step 1: a code that is no request code, and a code its side may not issue, are answered BAD_REQUEST, in every session state; at REQ the code of
FETCH is one of them. No other code is answered so at step 1 (R13). -/
def Obligations.UnpermittedCodesAreBadRequest : Prop :=
  (∀ (r : Req) (v : Via) (args : List Byte) (s : State), Presents v r s args →
    (v.side = .host ∧ r ∈ [Req.evict, .openRec, .closeAp, .chancfg, .chanon, .chanoff, .purge, .quota, .watermark] ∨
      v.side = .loc ∧ r ∈ [Req.write, .read, .linkcfg]) →
    exec (requestInstr r v) s = .next (refusedWith r v .badRequest s)) ∧
  (∀ (code : Byte) (v : Via) (args : List Byte) (s : State), present v code s = .carried args → unknownCode code v = true →
    exec (.unknownRequestCode code v) s = .next (answered v code .badRequest [] (entered v code s))) ∧
  (∀ upper lanes, unknownCode fetchCode (.loc upper lanes) = true) ∧
  (∀ (r : Req) (x : Side), reqOpenTo x r = false ↔
    (x = .host ∧ r ∈ [Req.evict, .openRec, .closeAp, .chancfg, .chanon, .chanoff, .purge, .quota, .watermark] ∨
      x = .loc ∧ r ∈ [Req.write, .read, .linkcfg]))

/-- Step 2: a request of a side that is not ATTACHED is NOT_ATTACHED, but for ATTACH, which is SESSION_BUSY while the side sweeps and passes
otherwise, and LINKCFG, which passes in every state (R14). -/
def Obligations.SessionCheckAnswers : Prop :=
  (∀ (r : Req) (v : Via) (args : List Byte) (s : State), Presents v r s args → reqOpenTo v.side r = true →
    (r ≠ .attach → r ≠ .linkcfg → s.session.get v.side ≠ .attached →
      exec (requestInstr r v) s = .next (refusedWith r v .notAttached s)) ∧
    (∀ p, r = .attach → s.session.get v.side = .sweeping p →
      exec (requestInstr r v) s = .next (refusedWith r v .sessionBusy s))) ∧
  (∀ (r : Req) (x : Side) (s : State) (k : Verdict), reqOpenTo x r = true →
    (s.session.get x = .attached ∨ r = .linkcfg ∨ (r = .attach ∧ s.session.get x = .detached)) → whenPermitted r x s k = k)

/-- Step 3: a request of a permitted side, past step 2, with an argument out of range that depends on no record is answered RANGE, whatever the
record or channel it names (R12, R18, R37, R39, R51, R53, R54, R59, R67, R70, R75, R77, R78, R138, R140, R141, R160, R161, R179). -/
def Obligations.ArgumentsOutOfRangeAreRange : Prop :=
  ∀ (r : Req) (v : Via) (args : List Byte) (s : State), Presents v r s args → reqOpenTo v.side r = true →
    (s.session.get v.side = .attached ∨ r = .linkcfg) → ¬ArgsInRange r args →
    exec (requestInstr r v) s = .next (refusedWith r v .range s)

/-- Steps 4 and 5 of the requests that name a record, their arguments in range: another generation is STALE, a FREE record BAD_HANDLE, and, but for
LOOKUP, a record QUEUED or held by the other side NOT_HOLDER (R8, R15). -/
def Obligations.HandleAndHolderChecks : Prop :=
  ∀ (r : Req) (v : Via) (args : List Byte) (s : State), Presents v r s args → Admitted r v.side s → ArgsInRange r args →
    r ∈ [Req.retire, .settag, .lookup, .setlen, .write, .read, .clone, .renew, .post, .ret, .openRec] →
    let h := argHalf args 0
    let e := s.entry (handleIdx h)
    (handleGen h ≠ e.gen → exec (requestInstr r v) s = .next (refusedWith r v .stale s)) ∧
    (handleGen h = e.gen → e.custody = .free → exec (requestInstr r v) s = .next (refusedWith r v .badHandle s)) ∧
    (r ≠ .lookup → handleGen h = e.gen → (∃ q, e.custody = .queued q) →
      exec (requestInstr r v) s = .next (refusedWith r v .notHolder s)) ∧
    (r ≠ .lookup → handleGen h = e.gen → (∃ k, e.custody = .held k ∧ k.holder ≠ v.side) →
      exec (requestInstr r v) s = .next (refusedWith r v .notHolder s))

/-- Steps 6 and 7 of the requests that name a record the requester holds: RECORD_BUSY for a pinned or filling record to SETLEN, WRITE, POST and RETURN,
for a filling one to READ; then RANGE for SETLEN above the length, WRITE from above the length or past the capacity, READ past the capacity
(R101, R137, R138, R140, R141). -/
def Obligations.BusyRecordsAndBoundsAreRefused : Prop :=
  ∀ (r : Req) (v : Via) (args : List Byte) (s : State) (i : RecIdx) (h : Held), Presents v r s args → Admitted r v.side s →
    ArgsInRange r args → HeldAt (argHalf args 0) i h s → h.holder = v.side →
    let refuse (st : Status) := exec (requestInstr r v) s = .next (refusedWith r v st s)
    let o := arg16 args 2
    (r ∈ [Req.setlen, .write, .post, .ret] → h.buf.pins ≠ 0 ∨ h.buf.filling = true → refuse .recordBusy) ∧
    (r = .read → h.buf.filling = true → refuse .recordBusy) ∧
    (h.buf.filling = false →
      (r = .setlen → h.buf.pins = 0 → h.buf.length < o → refuse .range) ∧
      (r = .write → h.buf.pins = 0 → h.buf.length < o ∨ h.buf.capacity < o + (args.drop 4).length → refuse .range) ∧
      (r = .read → h.buf.capacity < o + arg16 args 4 → refuse .range))

/-! ## The Custody Table and the pool -/

/-- ALLOC's checks in their order: RANGE for size 0 or above 4096, then OVER_QUOTA, NO_RECORD, NO_SPACE for the n segments its size needs
(R18). -/
def Obligations.AllocChecksInOrder : Prop :=
  ∀ (v : Via) (args : List Byte) (s : State), Presents v .alloc s args → Admitted .alloc v.side s →
    let size := arg16 args 0
    let n := (size + 127) / 128
    let refuse (st : Status) := exec (.alloc v) s = .next (refusedWith .alloc v st s)
    (size = 0 ∨ 4096 < size → refuse .range) ∧
    (1 ≤ size ∧ size ≤ 4096 →
      (s.quota.get v.side < s.charge.get v.side + n → refuse .overQuota) ∧
      (s.charge.get v.side + n ≤ s.quota.get v.side →
        (s.freeRecs = [] → refuse .noRecord) ∧ (s.freeRecs ≠ [] → s.freeSegs.length < n → refuse .noSpace)))

/-- An accepted ALLOC takes the record and the n segments at the heads of the free lists; the record is HELD by the requester with length 0 and the
tag, its generation kept; the requester's charge rises by n and POOL_LOW is judged; the answer is the handle (R19). -/
def Obligations.AllocTakesFromTheHeads : Prop :=
  ∀ (v : Via) (args : List Byte) (s : State) (i : RecIdx) (rest : List RecIdx), Presents v .alloc s args →
    Admitted .alloc v.side s →
    let size := arg16 args 0
    let n := (size + 127) / 128
    let t := entered v (reqCode .alloc) s
    1 ≤ size → size ≤ 4096 → s.charge.get v.side + n ≤ s.quota.get v.side → s.freeRecs = i :: rest → n ≤ s.freeSegs.length →
    exec (.alloc v) s = .next (acceptedWith .alloc v (half16 (handleOf (s.entry i).gen i))
      { t with
        freeRecs := rest
        freeSegs := s.freeSegs.drop n
        records := s.records.set i
          { gen := (s.entry i).gen,
            custody := .held
              { holder := v.side, origin := none, lease := none,
                buf := { segs := s.freeSegs.take n, length := 0, tag := argHalf args 2, reply := none, pins := 0,
                         filling := false } } }
        charge := s.charge.set v.side (s.charge.get v.side + n)
        latched := latchedAfterTake s (s.freeSegs.length - n) })

/-- An accepted RETIRE runs the retirement path on the record, filling clone or not, and is answered with no result fields; a pinned record is
RECORD_BUSY (R20, R21). -/
def Obligations.RetireRunsTheRetirementPath : Prop :=
  ∀ (v : Via) (args : List Byte) (s : State) (i : RecIdx) (h : Held), Presents v .retire s args → Admitted .retire v.side s →
    HeldAt (argHalf args 0) i h s → h.holder = v.side →
    (h.buf.pins = 0 → ∃ u, RetiredHeld i h (entered v (reqCode .retire) s) u ∧
      exec (.retire v) s = .next (acceptedWith .retire v [] u)) ∧
    (h.buf.pins ≠ 0 → exec (.retire v) s = .next (refusedWith .retire v .recordBusy s))

/-- An accepted SETTAG replaces the tag, pinned or filling record alike, and nothing else (R24). An accepted SETLEN sets the length to its argument,
at or below the present one, answers it, and changes nothing else (R141). -/
def Obligations.SettagAndSetlenReplaceOneField : Prop :=
  (∀ (v : Via) (args : List Byte) (s : State) (i : RecIdx) (h : Held), Presents v .settag s args → Admitted .settag v.side s →
    HeldAt (argHalf args 0) i h s → h.holder = v.side →
    exec (.settag v) s = .next (acceptedWith .settag v []
      { entered v (reqCode .settag) s with
        records := s.records.set i
          { gen := (s.entry i).gen, custody := .held { h with buf := { h.buf with tag := argHalf args 2 } } } })) ∧
  (∀ (v : Via) (args : List Byte) (s : State) (i : RecIdx) (h : Held), Presents v .setlen s args → Admitted .setlen v.side s →
    HeldAt (argHalf args 0) i h s → h.holder = v.side → h.buf.pins = 0 → h.buf.filling = false →
    arg16 args 2 ≤ h.buf.length → arg16 args 2 ≤ 4096 →
    exec (.setlen v) s = .next (acceptedWith .setlen v (half16 (argHalf args 2))
      { entered v (reqCode .setlen) s with
        records := s.records.set i
          { gen := (s.entry i).gen, custody := .held { h with buf := { h.buf with length := arg16 args 2 } } } }))

/-- An accepted LOOKUP reports the record, HELD by either side or QUEUED, in the LOOKUP layout and changes nothing (R25, R196). The handle R6 says it
reports is the argument, which is the record's current handle; the layout has no byte for it (log 21). -/
def Obligations.LookupReportsAndChangesNothing : Prop :=
  ∀ (v : Via) (args : List Byte) (s : State), Presents v .lookup s args → Admitted .lookup v.side s →
    let i := handleIdx (argHalf args 0)
    let chanOr (c : Option ChanNo) : Byte := match c with | some k => BitVec.ofNat 8 k.val | none => 0xFF
    let answer (bytes : List Byte) := exec (.lookup v) s = .next (acceptedWith .lookup v bytes (entered v (reqCode .lookup) s))
    let common (b : Buffer) : List Byte := le16 b.length ++ le16 (128 * b.segs.length) ++ half16 b.tag
    handleGen (argHalf args 0) = (s.entry i).gen →
    argHalf args 0 = handleOf (s.entry i).gen i ∧
    (∀ h, (s.entry i).custody = .held h → (heldReport s i h).handle = argHalf args 0 ∧
      answer ([1, (if h.holder = .host then 0 else 1), 0xFF, 0xFF, chanOr h.origin, chanOr h.buf.reply] ++ common h.buf ++
        [BitVec.ofNat 8 h.buf.pins, (if h.buf.filling then 1 else 0) + (if h.lease.isSome then 2 else 0)] ++
        le16 ((h.lease.map Lease.remaining).getD 0))) ∧
    (∀ q, (s.entry i).custody = .queued q → (queuedReport s i q).handle = argHalf args 0 ∧
      answer ([2, 0xFF, BitVec.ofNat 8 q.chan.val, BitVec.ofNat 8 ((s.chan q.chan).queue.idxOf i), 0xFF, chanOr q.buf.reply] ++
        common q.buf ++ [0, 0, 0, 0]))

/-- POOLINFO, CHANINFO and EVENTS report in their layouts and change nothing (R43, R77, R159, R196). -/
def Obligations.ReportsChangeNothing : Prop :=
  (∀ (v : Via) (args : List Byte) (s : State), Presents v .poolinfo s args → Admitted .poolinfo v.side s →
    exec (.poolinfo v) s = .next (acceptedWith .poolinfo v
      (le16 s.freeSegs.length ++ le16 s.freeRecs.length ++ le16 s.charge.host ++ le16 s.charge.loc ++ le16 s.quota.host
        ++ le16 s.quota.loc ++ le16 s.watermark) (entered v (reqCode .poolinfo) s))) ∧
  (∀ (v : Via) (args : List Byte) (s : State) (c : ChanNo), Presents v .chaninfo s args → Admitted .chaninfo v.side s →
    arg8 args 0 = BitVec.ofNat 8 c.val →
    let ch := s.chan c
    exec (.chaninfo v) s = .next (acceptedWith .chaninfo v
      ([(if ch.enabled then 1 else 0), (if ch.source = .host then 0 else 1), BitVec.ofNat 8 ch.depth, BitVec.ofNat 8 ch.priority]
        ++ le16 ch.leaseTime
        ++ [(if ch.flush then 1 else 0), BitVec.ofNat 8 ch.queue.length, BitVec.ofNat 8 (ch.outstanding - ch.queue.length), 0]
        ++ le16 ch.tally) (entered v (reqCode .chaninfo) s))) ∧
  (∀ (v : Via) (args : List Byte) (s : State), Presents v .events s args → Admitted .events v.side s →
    exec (.events v) s = .next (acceptedWith .events v
      (half16 ((s.latched.get v.side).setWidth 16) ++ half16 ((conditions s v.side).setWidth 16)
        ++ half16 ((s.enables.get v.side).setWidth 16) ++ [if s.line v.side then 1 else 0])
      (entered v (reqCode .events) s)))

/-- QUOTA sets the named side's quota and answers its charge; RANGE for a side that is neither, or a quota above 512 (R37). WATERMARK sets the level,
answers the free count and judges no crossing; RANGE above 512 (R39). -/
def Obligations.QuotaAndWatermarkSet : Prop :=
  (∀ (v : Via) (args : List Byte) (s : State), Presents v .quota s args → Admitted .quota v.side s →
    (∀ y : Side, arg8 args 0 = (if y = .host then 0 else 1) → arg16 args 2 ≤ 512 →
      exec (.quota v) s = .next (acceptedWith .quota v (le16 (s.charge.get y))
        { entered v (reqCode .quota) s with quota := s.quota.set y (arg16 args 2) })) ∧
    ((arg8 args 0 ≠ 0 ∧ arg8 args 0 ≠ 1) ∨ 512 < arg16 args 2 → exec (.quota v) s = .next (refusedWith .quota v .range s))) ∧
  (∀ (v : Via) (args : List Byte) (s : State), Presents v .watermark s args → Admitted .watermark v.side s →
    (arg16 args 0 ≤ 512 →
      exec (.watermark v) s = .next (acceptedWith .watermark v (le16 s.freeSegs.length)
        { entered v (reqCode .watermark) s with watermark := arg16 args 0 })) ∧
    (512 < arg16 args 0 → exec (.watermark v) s = .next (refusedWith .watermark v .range s)))

/-! ## Record data -/

/-- An accepted WRITE stores its data bytes at their record offsets, changes no other byte of the store, sets the length to the greater of the old
length and the end offset and answers it (R137, R139). -/
def Obligations.WriteStoresItsBytes : Prop :=
  ∀ (v : Via) (args : List Byte) (s : State) (i : RecIdx) (h : Held), Presents v .write s args → Admitted .write v.side s →
    HeldAt (argHalf args 0) i h s → h.holder = v.side → h.buf.pins = 0 → h.buf.filling = false →
    Memory.wf s.store → h.buf.segs.Nodup →
    let o := arg16 args 2
    let data := args.drop 4
    let len := max h.buf.length (o + data.length)
    1 ≤ data.length → o ≤ h.buf.length → o + data.length ≤ h.buf.capacity →
    ∃ m, RunStored h.buf o data s.store m ∧
      exec (.write v) s = .next (acceptedWith .write v (le16 len)
        { entered v (reqCode .write) s with
          store := m
          records := s.records.set i
            { gen := (s.entry i).gen, custody := .held { h with buf := { h.buf with length := len } } } })

/-- An accepted READ answers the length and then each byte of the run, zero at and beyond the length, and changes nothing (R136, R140). -/
def Obligations.ReadReturnsTheBytes : Prop :=
  ∀ (v : Via) (args : List Byte) (s : State) (i : RecIdx) (h : Held), Presents v .read s args → Admitted .read v.side s →
    HeldAt (argHalf args 0) i h s → h.holder = v.side → h.buf.filling = false →
    let o := arg16 args 2
    let count := arg16 args 4
    1 ≤ count → count ≤ 256 → o + count ≤ h.buf.capacity →
    ∃ bytes : List Byte, bytes.length = count ∧ (∀ k < count, bytes[k]? = some (byteAt s.store h.buf (o + k))) ∧
      exec (.read v) s = .next (acceptedWith .read v (le16 h.buf.length ++ bytes) (entered v (reqCode .read) s))

/-- An accepted OPEN binds the aperture to the record, pinned or not, replacing an earlier binding, answers length and capacity, and changes nothing
else; a filling clone is RECORD_BUSY (R144). -/
def Obligations.OpenBindsTheAperture : Prop :=
  ∀ (v : Via) (args : List Byte) (s : State) (i : RecIdx) (h : Held), Presents v .openRec s args → Admitted .openRec v.side s →
    HeldAt (argHalf args 0) i h s → h.holder = v.side →
    (h.buf.filling = false →
      exec (.openRec v) s = .next (acceptedWith .openRec v (le16 h.buf.length ++ le16 (128 * h.buf.segs.length))
        { entered v (reqCode .openRec) s with aperture := some i })) ∧
    (h.buf.filling = true → exec (.openRec v) s = .next (refusedWith .openRec v .recordBusy s))

/-- CLOSE from HOST is BAD_REQUEST and from a LOCAL that is not ATTACHED NOT_ATTACHED, the aperture then unbound already; accepted, it leaves the
aperture unbound, bound or not before, is answered OK with no result fields, and changes nothing else (R145). -/
def Obligations.CloseUnbindsTheAperture : Prop :=
  ∀ (v : Via) (args : List Byte) (s : State), Presents v .closeAp s args → ApertureInv s →
    (v.side = .host → exec (.closeAp v) s = .next (refusedWith .closeAp v .badRequest s)) ∧
    (v.side = .loc → s.session.loc ≠ .attached →
      s.aperture = none ∧ exec (.closeAp v) s = .next (refusedWith .closeAp v .notAttached s)) ∧
    (v.side = .loc → s.session.loc = .attached →
      exec (.closeAp v) s = .next (acceptedWith .closeAp v [] { entered v (reqCode .closeAp) s with aperture := none }))

/-- An aperture read, whatever its byte enables: below the bound record's capacity each lane is the record byte at its offset, zero at and beyond the
length; at or above it, or unbound, zero with APERTURE_FAULT latched at LOCAL; while nRESET is low zero with no fault. Never LERR, and nothing
else changes (R147, R193). -/
def Obligations.ApertureReadReturnsTheWord : Prop :=
  ∀ (word : BitVec 10) (be : BitVec 4) (s : State),
    let a := 4 * word.toNat
    let done (w : Word) : State := { s with bus := some { lerr := false, data := some w } }
    let faulted : State := { done 0 with latched := ⟨s.latched.host, plus s.latched.loc .apertureFault⟩ }
    (s.nRESET = true → ∀ (i : RecIdx) (b : Buffer), s.aperture = some i → (s.entry i).custody.buf? = some b →
      (a < b.capacity → ∃ w : Word, (∀ k < 4, lane w k = byteAt s.store b (a + k)) ∧
        exec (.apertureRead word be) s = .next (done w)) ∧
      (b.capacity ≤ a → exec (.apertureRead word be) s = .next faulted)) ∧
    (s.nRESET = true → s.aperture = none → exec (.apertureRead word be) s = .next faulted) ∧
    (s.nRESET = false → exec (.apertureRead word be) s = .next (done 0))

/-- An aperture write that meets the five conditions of R148 stores the enabled lanes at their record offsets, changes no other byte of the store,
and sets the length to the greater of the old length and the highest enabled offset plus one; nothing else changes. One that fails a condition
is dropped: no lane is stored, APERTURE_FAULT is latched at LOCAL, nothing else changes (R148, R137, R149); while nRESET is low it is dropped with no
fault (R193). -/
def Obligations.ApertureWriteStoresOrIsDropped : Prop :=
  (∀ (word : BitVec 10) (data : Word) (be : BitVec 4) (s : State) (i : RecIdx) (h : Held) (lo hi : Nat), s.nRESET = true →
     (s.entry i).custody = .held h → ApertureAccepts word s i h.buf lo hi be → Memory.wf s.store → h.buf.segs.Nodup →
     let a := 4 * word.toNat
     ∃ m, RunStored h.buf (a + lo) ((List.range (hi + 1 - lo)).map fun k => lane data (lo + k)) s.store m ∧
       exec (.apertureWrite word data be) s = .next
         { s with
           bus := some { lerr := false, data := none }
           store := m
           records := s.records.set i
             { gen := (s.entry i).gen,
               custody := .held { h with buf := { h.buf with length := max h.buf.length (a + hi + 1) } } } }) ∧
  (∀ (word : BitVec 10) (data : Word) (be : BitVec 4) (s : State),
     let done : State := { s with bus := some { lerr := false, data := none } }
     (s.nRESET = true → (¬∃ i b lo hi, ApertureAccepts word s i b lo hi be) →
       exec (.apertureWrite word data be) s = .next
         { done with latched := ⟨s.latched.host, plus s.latched.loc .apertureFault⟩ }) ∧
     (s.nRESET = false → exec (.apertureWrite word data be) s = .next done))

/-! ## The Copy Engine -/

/-- CLONE's checks from step 6 on, in their order: RECORD_BUSY for a filling clone, then QUEUE_FULL, OVER_QUOTA, NO_RECORD, NO_SPACE for the n
segments the source's length needs, 1 when it is 0 (R96). -/
def Obligations.CloneChecksInOrder : Prop :=
  ∀ (v : Via) (args : List Byte) (s : State) (i : RecIdx) (h : Held), Presents v .clone s args → Admitted .clone v.side s →
    HeldAt (argHalf args 0) i h s → h.holder = v.side →
    let n := if h.buf.length = 0 then 1 else (h.buf.length + 127) / 128
    let refuse (st : Status) := exec (.clone v) s = .next (refusedWith .clone v st s)
    (h.buf.filling = true → refuse .recordBusy) ∧
    (h.buf.filling = false →
      (4 ≤ s.jobs.length → refuse .queueFull) ∧
      (s.jobs.length < 4 →
        (s.quota.get v.side < s.charge.get v.side + n → refuse .overQuota) ∧
        (s.charge.get v.side + n ≤ s.quota.get v.side →
          (s.freeRecs = [] → refuse .noRecord) ∧ (s.freeRecs ≠ [] → s.freeSegs.length < n → refuse .noSpace))))

/-- An accepted CLONE takes a record and n segments from the heads of the free lists as a filling clone HELD by the requester with the source's length
and tag, charges it, judges POOL_LOW, pins the source once more and appends the job, active with progress 0 on an empty queue; the answer is the
clone's handle and the jobs ahead (R96, R97). -/
def Obligations.CloneMakesAJob : Prop :=
  ∀ (v : Via) (args : List Byte) (s : State) (i c : RecIdx) (h : Held) (rest : List RecIdx), Presents v .clone s args →
    Admitted .clone v.side s → HeldAt (argHalf args 0) i h s → h.holder = v.side → h.buf.filling = false →
    FreeRecordsInv s →
    let n := if h.buf.length = 0 then 1 else (h.buf.length + 127) / 128
    let t := entered v (reqCode .clone) s
    s.jobs.length < 4 → s.charge.get v.side + n ≤ s.quota.get v.side → s.freeRecs = c :: rest → n ≤ s.freeSegs.length →
    exec (.clone v) s = .next (acceptedWith .clone v (half16 (handleOf (s.entry c).gen c) ++ [BitVec.ofNat 8 s.jobs.length])
      { t with
        freeRecs := rest
        freeSegs := s.freeSegs.drop n
        records := (s.records.set c
          { gen := (s.entry c).gen,
            custody := .held
              { holder := v.side, origin := none, lease := none,
                buf := { segs := s.freeSegs.take n, length := h.buf.length, tag := h.buf.tag, reply := none, pins := 0,
                         filling := true } } }).set i
          { gen := (s.entry i).gen, custody := .held { h with buf := { h.buf with pins := h.buf.pins + 1 } } }
        charge := s.charge.set v.side (s.charge.get v.side + n)
        latched := latchedAfterTake s (s.freeSegs.length - n)
        jobs := s.jobs ++ [{ source := i, clone := c, side := v.side }]
        progress := if s.jobs = [] then 0 else s.progress })

/-- A copy step of the active job copies the source's bytes of its segment position below the source's length into the same offsets of the clone,
changes no other byte of the store, and advances the progress by one (R103). With no active job, or no step left, nothing changes (log 8). -/
def Obligations.CopyStepCopiesOneSegment : Prop :=
  (∀ (s : State) (j : Job) (rest : List Job) (src dst : Buffer), s.jobs = j :: rest →
    (s.entry j.source).custody.buf? = some src → (s.entry j.clone).custody.buf? = some dst →
    Memory.wf s.store → dst.segs.Nodup → 128 * s.progress < src.length →
    ∃ m, RunStored dst (128 * s.progress)
        ((List.range (min 128 (src.length - 128 * s.progress))).map fun k => byteAt s.store src (128 * s.progress + k)) s.store m ∧
      exec .copyStep s = .next { s with store := m, progress := s.progress + 1 }) ∧
  (∀ s : State, s.jobs = [] → exec .copyStep s = .next s) ∧
  (∀ (s : State) (j : Job) (rest : List Job) (src : Buffer), s.jobs = j :: rest →
    (s.entry j.source).custody.buf? = some src → src.length ≤ 128 * s.progress → exec .copyStep s = .next s)

/-- The completion of the active job, its steps all taken: the clone's filling flag is cleared, the source is unpinned by one, the job leaves the head
and the next is active with progress 0, COPY_DONE is latched at the job's side, and nothing else changes (R104, R100). With no active job, or a
step left, nothing changes (log 8). -/
def Obligations.CopyCompletionEndsTheJob : Prop :=
  (∀ (s : State) (j : Job) (rest : List Job) (src : Buffer), s.jobs = j :: rest →
     (s.entry j.source).custody.buf? = some src → src.length ≤ 128 * s.progress →
     ∃ records : Vector Entry 128,
       (∀ i : RecIdx, records[i] =
         { gen := (s.entry i).gen,
           custody := (s.entry i).custody.mapBuf fun b =>
             { b with filling := b.filling && decide (i ≠ j.clone), pins := if i = j.source then b.pins - 1 else b.pins } }) ∧
       exec .copyCompletion s = .next
         { s with records := records, jobs := rest, progress := 0,
                  latched := s.latched.set j.side (plus (s.latched.get j.side) .copyDone) }) ∧
  (∀ s : State, s.jobs = [] → exec .copyCompletion s = .next s) ∧
  (∀ (s : State) (j : Job) (rest : List Job) (src : Buffer), s.jobs = j :: rest →
    (s.entry j.source).custody.buf? = some src → 128 * s.progress < src.length → exec .copyCompletion s = .next s)

/-! ## Leases -/

/-- An accepted RENEW sets the remaining count to the origin channel's lease time, answers it, and changes nothing else; a record with no lease is
NO_LEASE (R86, R87). A tick's report that still waits at the record goes on waiting (log 7). -/
def Obligations.RenewRestartsTheLease : Prop :=
  ∀ (v : Via) (args : List Byte) (s : State) (i : RecIdx) (h : Held), Presents v .renew s args → Admitted .renew v.side s →
    HeldAt (argHalf args 0) i h s → h.holder = v.side →
    (∀ l c, h.lease = some l → h.origin = some c →
      exec (.renew v) s = .next (acceptedWith .renew v (le16 (s.chan c).leaseTime)
        { entered v (reqCode .renew) s with
          records := s.records.set i
            { gen := (s.entry i).gen,
              custody := .held { h with lease := some { l with remaining := (s.chan c).leaseTime } } } })) ∧
    (h.lease = none → exec (.renew v) s = .next (refusedWith .renew v .noLease s))

/-- A TCLK cycle advances the prescaler by one; the cycle that finds it at 1023 returns it to 0 and produces one tick (R82; the tick waits in
`ticksDue`, log 6). A lease tick lowers every count of 2 or more by one and reports a count of 1 as expired without lowering it (R85; the report
waits in `due`, logs 6, 7); where the report of an earlier tick still waits at a record renewed to 2 or more, that tick's decrement is made
first (R87, log 7), and where it waits at a count of 1 it stays the one report (log 23). Records with no lease are as they were. The tick is taken
from `ticksDue`; where none waits there, the command stands for the cycles up to the one that produces it and leaves the prescaler at 0 (log 6's
choice); nothing else changes. While nRESET is low neither a cycle nor a tick changes anything (log 16). -/
def Obligations.TicksCountTheLeasesDown : Prop :=
  (∀ s : State,
    (s.nRESET = true → s.prescaler ≠ 1023 → ∃ p, p.toNat = s.prescaler.toNat + 1 ∧
      exec .tclkCycle s = .next { s with prescaler := p }) ∧
    (s.nRESET = true → s.prescaler = 1023 → exec .tclkCycle s = .next { s with prescaler := 0, ticksDue := s.ticksDue + 1 }) ∧
    (s.nRESET = false → exec .tclkCycle s = .next s)) ∧
  (∀ s : State, s.nRESET = true →
    ∃ t, exec .leaseTick s = .next t ∧
      (∀ (i : RecIdx) (h : Held) (l : Lease), (s.entry i).custody = .held h → h.lease = some l →
        let n := if l.due = true ∧ 2 ≤ l.remaining then l.remaining - 1 else l.remaining
        (2 ≤ n → t.entry i =
          { gen := (s.entry i).gen, custody := .held { h with lease := some { remaining := n - 1, due := false } } }) ∧
        (n ≤ 1 → t.entry i =
          { gen := (s.entry i).gen, custody := .held { h with lease := some { remaining := n, due := true } } })) ∧
      (∀ (i : RecIdx), (∀ h, (s.entry i).custody = .held h → h.lease = none) → t.entry i = s.entry i) ∧
      t = { s with records := t.records, prescaler := if s.ticksDue = 0 then 0 else s.prescaler, ticksDue := s.ticksDue - 1 }) ∧
  (∀ s : State, s.nRESET = false → exec .leaseTick s = .next s)

/-- The expiry of record `i`, its count at 1 when a tick reported it: the jobs it is the source of are removed and their clones retired in queue order,
the aperture unbound from it, its generation advanced, it stands unpinned at the head of its origin channel with its reply channel kept, its charge
moves back to the channel's source side, LEASE_LOST is latched at the former holder, and COPY_ABORTED once if a job was removed; outstanding
and tally, the lease of no other record, and nothing else change (R89, R74, R107). Where a RENEW came after the report the count falls
by one instead (R87, log 7). At a record that is not HELD with a lease, or whose lease no tick has reported, nothing changes (R85, log 8). -/
def Obligations.LeaseExpiryRequeuesTheRecord : Prop :=
  (∀ (s : State) (i : RecIdx) (h : Held) (c : ChanNo) (n : Nat), Inv s → (s.entry i).custody = .held h → h.origin = some c →
     h.lease = some { remaining := n, due := true } →
     (2 ≤ n → exec (.leaseExpiry i) s = .next
       { s with
         records := s.records.set i
           { gen := (s.entry i).gen, custody := .held { h with lease := some { remaining := n - 1, due := false } } } }) ∧
     (n = 1 →
       let gone := s.jobs.filter fun j => j.source == i
       let clones := gone.map Job.clone
       let back := clones.flatMap (segsOf s)
       let mine := h.buf.segs.length
       let after := latchedAfterGive s (s.freeSegs.length + back.length)
       let lost := plus (after.get h.holder) .leaseLost
       ∃ t, exec (.leaseExpiry i) s = .next t ∧
         t.entry i = { gen := (s.entry i).gen + 1, custody := .queued { chan := c, buf := { h.buf with pins := 0 } } } ∧
         (∀ k, k ≠ i → t.entry k = if k ∈ clones then { gen := (s.entry k).gen + 1, custody := .free } else s.entry k) ∧
         t.freeRecs = s.freeRecs ++ clones ∧ t.freeSegs = s.freeSegs ++ back ∧
         t.jobs = s.jobs.filter (fun j => j.source != i) ∧
         t.progress = (if (s.jobs.head?.any fun j => j.source == i) = true then 0 else s.progress) ∧
         t.aperture = (if s.aperture = some i then none else s.aperture) ∧
         t.chan c = { s.chan c with queue := i :: (s.chan c).queue } ∧ (∀ d, d ≠ c → t.chan d = s.chan d) ∧
         t.charge = (s.charge.set h.holder (s.charge.get h.holder - back.length - mine)).set (s.chan c).source
           (s.charge.get (s.chan c).source + mine) ∧
         t.latched = after.set h.holder (if gone = [] then lost else plus lost .copyAborted) ∧
         t = { s with records := t.records, freeRecs := t.freeRecs, freeSegs := t.freeSegs, jobs := t.jobs, progress := t.progress,
                      aperture := t.aperture, chans := t.chans, charge := t.charge, latched := t.latched })) ∧
  (∀ (s : State) (i : RecIdx), (∀ h l, (s.entry i).custody = .held h → h.lease = some l → l.due = false) →
    exec (.leaseExpiry i) s = .next s)

/-! ## Channels -/

/-- The channel and credit checks of POST, in their order: BAD_CHANNEL for the channel, BAD_CHANNEL for the reply channel, PEER_ABSENT, NO_CREDIT (R59);
of RETURN with a reply channel, in the same order (R64); and CLAIM's and CLAIMTAG's BAD_CHANNEL (R67, R70). -/
def Obligations.ChannelChecksInOrder : Prop :=
  (∀ (v : Via) (args : List Byte) (s : State) (i : RecIdx) (h : Held) (c : ChanNo) (reply : Option ChanNo),
    Presents v .post s args → Admitted .post v.side s → HeldAt (argHalf args 0) i h s → h.holder = v.side → h.buf.pins = 0 →
    h.buf.filling = false → arg8 args 2 = BitVec.ofNat 8 c.val →
    arg8 args 3 = (match reply with | some r => BitVec.ofNat 8 r.val | none => 0xFF) →
    let refuse (st : Status) := exec (.post v) s = .next (refusedWith .post v st s)
    let usable := (s.chan c).enabled = true ∧ (s.chan c).source = v.side
    let replyUsable := ∀ r, reply = some r → (s.chan r).enabled = true ∧ (s.chan r).source = peer (s.chan c).source
    let absent := (s.chan c).flush = true ∧ s.session.get (peer (s.chan c).source) ≠ .attached
    (¬usable → refuse .badChannel) ∧ (usable → ¬replyUsable → refuse .badChannel) ∧
    (usable → replyUsable → absent → refuse .peerAbsent) ∧
    (usable → replyUsable → ¬absent → (s.chan c).depth ≤ (s.chan c).outstanding → refuse .noCredit)) ∧
  (∀ (v : Via) (args : List Byte) (s : State) (i : RecIdx) (h : Held) (r : ChanNo), Presents v .ret s args →
    Admitted .ret v.side s → HeldAt (argHalf args 0) i h s → h.holder = v.side → h.buf.pins = 0 → h.buf.filling = false →
    h.buf.reply = some r →
    let refuse (st : Status) := exec (.ret v) s = .next (refusedWith .ret v st s)
    let usable := (s.chan r).enabled = true ∧ (s.chan r).source = v.side
    let absent := (s.chan r).flush = true ∧ s.session.get (peer (s.chan r).source) ≠ .attached
    (¬usable → refuse .badChannel) ∧ (usable → absent → refuse .peerAbsent) ∧
    (usable → ¬absent → (s.chan r).depth ≤ (s.chan r).outstanding → refuse .noCredit)) ∧
  (∀ (r : Req) (v : Via) (args : List Byte) (s : State) (c : ChanNo), Presents v r s args → Admitted r v.side s →
    r ∈ [Req.claim, .claimtag] → arg8 args 0 = BitVec.ofNat 8 c.val →
    ((s.chan c).enabled = false ∨ (s.chan c).source = v.side) →
    exec (requestInstr r v) s = .next (refusedWith r v .badChannel s))

/-- An accepted POST clears the lease, unbinds the aperture, releases the origin, appends the record to the channel with the reply channel given or
none, and raises its outstanding count; the charge stays; the answer is the queue position (R59, R60). -/
def Obligations.PostPlacesTheRecord : Prop :=
  ∀ (v : Via) (args : List Byte) (s : State) (i : RecIdx) (h : Held) (c : ChanNo) (reply : Option ChanNo),
    Presents v .post s args → Admitted .post v.side s → RecordsInv s →
    HeldAt (argHalf args 0) i h s → h.holder = v.side → h.buf.pins = 0 → h.buf.filling = false →
    arg8 args 2 = BitVec.ofNat 8 c.val →
    arg8 args 3 = (match reply with | some r => BitVec.ofNat 8 r.val | none => 0xFF) →
    (s.chan c).enabled = true → (s.chan c).source = v.side →
    (∀ r, reply = some r → (s.chan r).enabled = true ∧ (s.chan r).source = peer (s.chan c).source) →
    ((s.chan c).flush = true → s.session.get (peer (s.chan c).source) = .attached) →
    (s.chan c).outstanding < (s.chan c).depth →
    ∃ u, RecordPlaced i h c reply (entered v (reqCode .post) s) u ∧
      exec (.post v) s = .next (acceptedWith .post v [BitVec.ofNat 8 (s.chan c).queue.length] u)

/-- An accepted RETURN does what a POST onto the record's reply channel with no reply argument does, and answers the channel and the position
(R64, R65); a record without a reply channel is NO_REPLY. -/
def Obligations.ReturnPlacesTheRecord : Prop :=
  ∀ (v : Via) (args : List Byte) (s : State) (i : RecIdx) (h : Held), Presents v .ret s args → Admitted .ret v.side s →
    RecordsInv s → HeldAt (argHalf args 0) i h s → h.holder = v.side → h.buf.pins = 0 → h.buf.filling = false →
    (∀ r, h.buf.reply = some r → (s.chan r).enabled = true → (s.chan r).source = v.side →
      ((s.chan r).flush = true → s.session.get (peer (s.chan r).source) = .attached) →
      (s.chan r).outstanding < (s.chan r).depth →
      ∃ u, RecordPlaced i h r none (entered v (reqCode .ret) s) u ∧
        exec (.ret v) s = .next
          (acceptedWith .ret v [BitVec.ofNat 8 r.val, BitVec.ofNat 8 (s.chan r).queue.length] u)) ∧
    (h.buf.reply = none → exec (.ret v) s = .next (refusedWith .ret v .noReply s))

/-- CLAIM takes the head of the queue, CLAIMTAG the record nearest the head whose tag equals the argument; the claimed record is HELD by the requester
with the channel as origin and a lease if the channel grants one, its charge moves to the requester, the rest of the queue keeps its order, and the
claim layout is answered; with no such record the answer is EMPTY (R67 to R70). -/
def Obligations.ClaimTakesTheRecord : Prop :=
  (∀ (v : Via) (args : List Byte) (s : State) (c : ChanNo), Presents v .claim s args → Admitted .claim v.side s →
    arg8 args 0 = BitVec.ofNat 8 c.val → (s.chan c).enabled = true → peer (s.chan c).source = v.side →
    (∀ i rest q, (s.chan c).queue = i :: rest → (s.entry i).custody = .queued q →
      exec (.claim v) s = .next (acceptedWith .claim v (claimBytes s c i q.buf)
        (claimedState v.side c i q rest (entered v (reqCode .claim) s)))) ∧
    ((s.chan c).queue = [] → exec (.claim v) s = .next (refusedWith .claim v .empty s))) ∧
  (∀ (v : Via) (args : List Byte) (s : State) (c : ChanNo), Presents v .claimtag s args → Admitted .claimtag v.side s →
    arg8 args 0 = BitVec.ofNat 8 c.val → (s.chan c).enabled = true → peer (s.chan c).source = v.side →
    let tagged (j : RecIdx) : Prop := ∃ b, (s.entry j).custody.buf? = some b ∧ b.tag = argHalf args 2
    (∀ front i back q, (s.chan c).queue = front ++ i :: back → (∀ j ∈ front, ¬tagged j) → tagged i →
      (s.entry i).custody = .queued q →
      exec (.claimtag v) s = .next (acceptedWith .claimtag v (claimBytes s c i q.buf)
        (claimedState v.side c i q (front ++ back) (entered v (reqCode .claimtag) s)))) ∧
    ((∀ j ∈ (s.chan c).queue, ¬tagged j) → exec (.claimtag v) s = .next (refusedWith .claimtag v .empty s)))

/-- CLAIMANY claims the head of the channel of the highest priority present that is reached first counting upward from the requester's pointer, and sets
the pointer to the channel after it; with no candidate it is EMPTY and the pointer stays (R71, R72). -/
def Obligations.ClaimanyChoosesByPriorityThenRotation : Prop :=
  ∀ (v : Via) (args : List Byte) (s : State), Presents v .claimany s args → Admitted .claimany v.side s →
    let isCandidate (d : ChanNo) : Prop :=
      (s.chan d).enabled = true ∧ peer (s.chan d).source = v.side ∧ (s.chan d).queue ≠ []
    let p := s.rr.get v.side
    (∀ (c : ChanNo) (i : RecIdx) (rest : List RecIdx) (q : Queued), isCandidate c →
      (∀ d, isCandidate d → (s.chan d).priority ≤ (s.chan c).priority) →
      (∀ d, isCandidate d → (s.chan d).priority = (s.chan c).priority → (c - p).val ≤ (d - p).val) →
      (s.chan c).queue = i :: rest → (s.entry i).custody = .queued q →
      exec (.claimany v) s = .next (acceptedWith .claimany v (claimBytes s c i q.buf)
        { claimedState v.side c i q rest (entered v (reqCode .claimany) s) with rr := s.rr.set v.side (c + 1) })) ∧
    ((∀ d, ¬isCandidate d) → exec (.claimany v) s = .next (refusedWith .claimany v .empty s))

/-- TALLY answers a channel's tally to its source side, in either state, and sets it to 0, changing nothing else; to the destination side it is
BAD_CHANNEL (R75). -/
def Obligations.TallyReadsAndClears : Prop :=
  ∀ (v : Via) (args : List Byte) (s : State) (c : ChanNo), Presents v .tally s args → Admitted .tally v.side s →
    arg8 args 0 = BitVec.ofNat 8 c.val →
    ((s.chan c).source = v.side →
      exec (.tally v) s = .next (acceptedWith .tally v (le16 (s.chan c).tally)
        { entered v (reqCode .tally) s with chans := s.chans.set c { s.chan c with tally := 0 } })) ∧
    ((s.chan c).source ≠ v.side → exec (.tally v) s = .next (refusedWith .tally v .badChannel s))

/-- CHANCFG replaces the six configuration fields of a DISABLED channel and clears its tally; CHANON enables a configured channel; CHANOFF disables a
channel with nothing outstanding; each answers OK with no result fields and changes nothing else. An ENABLED channel is CHANNEL_BUSY to CHANCFG, an
outstanding count above 0 to CHANOFF, and an unconfigured DISABLED channel RANGE to CHANON (R51 to R54). -/
def Obligations.ChannelsAreConfigured : Prop :=
  (∀ (v : Via) (args : List Byte) (s : State) (c : ChanNo) (src : Side) (flush : Bool), Presents v .chancfg s args →
    Admitted .chancfg v.side s → arg8 args 0 = BitVec.ofNat 8 c.val → arg8 args 1 = (if src = .host then 0 else 1) →
    1 ≤ (arg8 args 2).toNat → (arg8 args 2).toNat ≤ 32 → (arg8 args 3).toNat ≤ 3 → arg16 args 4 ≤ 4095 →
    arg8 args 6 = (if flush then 1 else 0) →
    ((s.chan c).enabled = false →
      exec (.chancfg v) s = .next (acceptedWith .chancfg v []
        { entered v (reqCode .chancfg) s with
          chans := s.chans.set c
            { s.chan c with
              source := src, depth := (arg8 args 2).toNat, priority := (arg8 args 3).toNat, leaseTime := arg16 args 4,
              flush := flush, tally := 0 } })) ∧
    ((s.chan c).enabled = true → exec (.chancfg v) s = .next (refusedWith .chancfg v .channelBusy s))) ∧
  (∀ (v : Via) (args : List Byte) (s : State) (c : ChanNo), Presents v .chanon s args → Admitted .chanon v.side s →
    arg8 args 0 = BitVec.ofNat 8 c.val →
    ((s.chan c).enabled = true ∨ (s.chan c).depth ≠ 0 →
      exec (.chanon v) s = .next (acceptedWith .chanon v []
        { entered v (reqCode .chanon) s with chans := s.chans.set c { s.chan c with enabled := true } })) ∧
    ((s.chan c).enabled = false → (s.chan c).depth = 0 → exec (.chanon v) s = .next (refusedWith .chanon v .range s))) ∧
  (∀ (v : Via) (args : List Byte) (s : State) (c : ChanNo), Presents v .chanoff s args → Admitted .chanoff v.side s →
    arg8 args 0 = BitVec.ofNat 8 c.val →
    ((s.chan c).outstanding = 0 →
      exec (.chanoff v) s = .next (acceptedWith .chanoff v []
        { entered v (reqCode .chanoff) s with chans := s.chans.set c { s.chan c with enabled := false } })) ∧
    (0 < (s.chan c).outstanding → exec (.chanoff v) s = .next (refusedWith .chanoff v .channelBusy s)))

/-- PURGE retires every record queued on the channel, head to tail, in either state of the channel, and answers how many; the channel's outstanding
count falls and its tally rises by that number; records claimed from it and everything else stay (R78, R57). -/
def Obligations.PurgeRetiresTheQueue : Prop :=
  ∀ (v : Via) (args : List Byte) (s : State) (c : ChanNo), Presents v .purge s args → Admitted .purge v.side s → Inv s →
    arg8 args 0 = BitVec.ofNat 8 c.val →
    ∃ u, QueuesPurged (fun d => d == c) (entered v (reqCode .purge) s) u ∧
      exec (.purge v) s = .next (acceptedWith .purge v [BitVec.ofNat 8 (s.chan c).queue.length] u)

/-! ## Events and sessions -/

/-- ACK removes the pending events its mask names from the requester's latched set and answers the set left; EVMASK replaces the requester's enable
set and answers the line after it; each changes nothing else; a mask with a bit of 10 to 15 is RANGE (R160, R161, R197). -/
def Obligations.AckAndEvmaskActOnOneSet : Prop :=
  (∀ (v : Via) (args : List Byte) (s : State), Presents v .ack s args → Admitted .ack v.side s →
    let mask := argHalf args 0
    (mask.extractLsb' 10 6 = 0 → ∃ left : EventSet,
      (∀ n < 10, left.getLsbD n = ((s.latched.get v.side).getLsbD n && !mask.getLsbD n)) ∧
      exec (.ack v) s = .next (acceptedWith .ack v (half16 (left.setWidth 16))
        { entered v (reqCode .ack) s with latched := s.latched.set v.side left })) ∧
    (mask.extractLsb' 10 6 ≠ 0 → exec (.ack v) s = .next (refusedWith .ack v .range s))) ∧
  (∀ (v : Via) (args : List Byte) (s : State), Presents v .evmask s args → Admitted .evmask v.side s →
    let mask := argHalf args 0
    (mask.extractLsb' 10 6 = 0 → ∃ set : EventSet, (∀ n < 10, set.getLsbD n = mask.getLsbD n) ∧
      let u : State := { entered v (reqCode .evmask) s with enables := s.enables.set v.side set }
      exec (.evmask v) s = .next (acceptedWith .evmask v [if u.line v.side then 1 else 0] u)) ∧
    (mask.extractLsb' 10 6 ≠ 0 → exec (.evmask v) s = .next (refusedWith .evmask v .range s)))

/-- ATTACH from DETACHED makes the side ATTACHED, clears its latched set and enables, and latches PEER_UP at the peer; from ATTACHED nothing changes;
each answers the peer's session state (R115, R116). -/
def Obligations.AttachBeginsTheSession : Prop :=
  ∀ (v : Via) (args : List Byte) (s : State), Presents v .attach s args →
    let x := v.side
    let t := entered v (reqCode .attach) s
    let state : Byte := match s.session.get (peer x) with | .detached => 0 | .attached => 1 | .sweeping _ => 2
    (s.session.get x = .detached →
      exec (.attach v) s = .next (acceptedWith .attach v [state]
        { t with
          session := s.session.set x .attached
          enables := s.enables.set x 0
          latched := (s.latched.set x 0).set (peer x) (plus (s.latched.get (peer x)) .peerUp) })) ∧
    (s.session.get x = .attached → exec (.attach v) s = .next (acceptedWith .attach v [state] t))

/-- DETACH starts the side's own sweep and EVICT HOST's; each is answered OK at the start with no result fields; EVICT is PEER_ABSENT unless HOST is
ATTACHED (R117, R118, R121). -/
def Obligations.LeavingStartsTheSweep : Prop :=
  (∀ (v : Via) (args : List Byte) (s : State), Presents v .detach s args → Admitted .detach v.side s →
    ∃ u, SweepStarted v.side (entered v (reqCode .detach) s) u ∧ exec (.detach v) s = .next (acceptedWith .detach v [] u)) ∧
  (∀ (v : Via) (args : List Byte) (s : State), Presents v .evict s args → Admitted .evict v.side s →
    (s.session.host = .attached →
      ∃ u, SweepStarted .host (entered v (reqCode .evict) s) u ∧ exec (.evict v) s = .next (acceptedWith .evict v [] u)) ∧
    (s.session.host ≠ .attached → exec (.evict v) s = .next (refusedWith .evict v .peerAbsent s)))

/-- A step of a side's sweep retires the record at the sweep position if the side holds it, passes it by otherwise, and moves the position on by one,
to END after 127; nothing else changes (R122, R123). With no step due nothing changes (log 8). -/
def Obligations.SweepStepRetiresWhatTheSideHolds : Prop :=
  ∀ (s : State) (x : Side),
    (∀ i : RecIdx, s.session.get x = .sweeping (.next i) →
      let after : Per Session := s.session.set x (.sweeping (if i = 127 then .done else .next (i + 1)))
      (∀ h, (s.entry i).custody = .held h → h.holder = x →
        ∃ u, RetiredHeld i h s u ∧ exec (.sweepStep x) s = .next { u with session := after }) ∧
      ((∀ h, (s.entry i).custody = .held h → h.holder ≠ x) → exec (.sweepStep x) s = .next { s with session := after })) ∧
    ((∀ i : RecIdx, s.session.get x ≠ .sweeping (.next i)) → exec (.sweepStep x) s = .next s)

/-- The completion of a side's sweep purges the flush-on-detach channels destined for it, channels ascending and each head to tail, makes the side
DETACHED and latches PEER_GONE at the peer; nothing else changes (R125, R126). Before END nothing changes (log 8). -/
def Obligations.SweepCompletionDetachesTheSide : Prop :=
  ∀ (s : State) (x : Side),
    (Inv s → s.session.get x = .sweeping .done →
      ∃ u, QueuesPurged (fun c => (s.chan c).flush && (s.chan c).source == peer x) s u ∧
        exec (.sweepCompletion x) s = .next
          { u with session := s.session.set x .detached,
                   latched := u.latched.set (peer x) (plus (u.latched.get (peer x)) .peerGone) }) ∧
    (s.session.get x ≠ .sweeping .done → exec (.sweepCompletion x) s = .next s)

/-! ## The host link's LINKCFG, the window's registers, the reset lines -/

/-- An accepted LINKCFG, in every session state, sets check mode to its argument and answers it; nothing else changes; another mode byte is RANGE
(R179). -/
def Obligations.LinkcfgSetsCheckMode : Prop :=
  ∀ (v : Via) (args : List Byte) (s : State), Presents v .linkcfg s args → v.side = .host →
    (∀ m : Bool, arg8 args 0 = (if m then 1 else 0) →
      exec (.linkcfg v) s = .next (acceptedWith .linkcfg v [if m then 1 else 0]
        { entered v (reqCode .linkcfg) s with checkMode := m })) ∧
    (arg8 args 0 ≠ 0 → arg8 args 0 ≠ 1 → exec (.linkcfg v) s = .next (refusedWith .linkcfg v .range s))

/-- An undefined offset, a write to a read-only register, a REQ write without lane 0, and every register access while nRESET is low complete with LERR,
a read returning zero, and change nothing; no other register access and no aperture access completes with LERR (R190, R193). A BUS_ERROR whose access
is no error, and an UNKNOWN_REQUEST_CODE of a known code, act as the access or request they spell (log 4). -/
def Obligations.BusErrorsChangeNothing : Prop :=
  (∀ (a : BusAccess) (s : State), a.isError = true ∨ (s.nRESET = false ∧ a.word.getLsbD 10 = false) →
    exec (.busError a) s = .next { s with bus := some { lerr := true, data := if a.write then none else some 0 } }) ∧
  (∀ (n : Fin 4) (data : Word) (be : BitVec 4) (s : State), s.nRESET = false →
    exec (.argWrite n data be) s = .next { s with bus := some { lerr := true, data := none } }) ∧
  (∀ (upper : BitVec 24) (lanes : BitVec 3) (s : State), s.nRESET = false →
    let failed : State := { s with bus := some { lerr := true, data := none } }
    (∀ r : Req, exec (requestInstr r (.loc upper lanes)) s = .next failed) ∧
    (∀ code : Byte, exec (.unknownRequestCode code (.loc upper lanes)) s = .next failed)) ∧
  (∀ (a : BusAccess) (s : State), a.isError = false → (s.nRESET = true ∨ a.word.getLsbD 10 = true) →
    ∃ t, exec (.busError a) s = .next t ∧ ∃ d, t.bus = some { lerr := false, data := d })

/-- A write of an ARG register stores its enabled lanes, leaves the others, completes without LERR, and changes nothing else (R185). What a register
read returns outside reset, and that it changes nothing (R184, R185, R187 to R189, R200): the table has no row for a register read, and the model
takes it by the access operand of BUS_ERROR (log 4). -/
def Obligations.RegistersHoldWhatIsWritten : Prop :=
  (∀ (n : Fin 4) (data : Word) (be : BitVec 4) (s : State), s.nRESET = true →
     ∃ w : Word, (∀ k < 4, lane w k = if be.getLsbD k then lane data k else lane s.args[n] k) ∧
       exec (.argWrite n data be) s = .next { s with args := s.args.set n w, bus := some { lerr := false, data := none } }) ∧
  (∀ (s : State) (data : Word) (be : BitVec 4), s.nRESET = true →
     let reads (word : BitVec 11) (w : Word) : Prop :=
       exec (.busError { write := false, word := word, data := data, be := be }) s =
         .next { s with bus := some { lerr := false, data := some w } }
     reads 0 s.args[0] ∧ reads 1 s.args[1] ∧ reads 2 s.args[2] ∧ reads 3 s.args[3] ∧
     reads 4 (s.req.setWidth 32) ∧ reads 5 s.stat ∧
     reads 6 s.res[0] ∧ reads 7 s.res[1] ∧ reads 8 s.res[2] ∧ reads 9 s.res[3] ∧
     ∃ w : Word, reads 10 w ∧ w.extractLsb' 6 10 = 0 ∧
       w.extractLsb' 0 2 = (match s.session.host with | .detached => 0 | .attached => 1 | .sweeping _ => 2) ∧
       w.extractLsb' 2 2 = (match s.session.loc with | .detached => 0 | .attached => 1 | .sweeping _ => 2) ∧
       w.getLsbD 4 = s.aperture.isSome ∧ w.getLsbD 5 = s.line .loc ∧
       (s.aperture = none → w.extractLsb' 16 16 = 0) ∧
       (∀ i, s.aperture = some i → w.extractLsb' 16 16 = handleOf (s.entry i).gen i))

/-- The reset lines. nRESET's fall puts every block in its reset state, keeps the store, and completes a held REQ write with LERR; nHRST's fall empties
the slot, clears OVERRUN and check mode and starts HOST's sweep if HOST is ATTACHED; either fall abandons a frame in progress; either line's
rise changes nothing but the line (R27, R29, R119, R180, R182, R193; what the pins carried and the levels are kept, log 15). A line that is low
already does not fall (log 8). -/
def Obligations.ResetLinesActAsGiven : Prop :=
  ∀ (s : State) (bits : List Bool) (held : Option HeldWrite),
    let port : State := { s with rx := abandonedRx bits s, slot := .empty, overrun := false, checkMode := false }
    (s.nRESET = true → exec (.deviceReset ⟨.full, bits, held⟩) s = .next
      { State.reset with
        store := s.store, rx := abandonedRx bits s, shifted := s.shifted,
        bus := if held.isSome then some { lerr := true, data := none } else s.bus,
        nRESET := false, nHRST := s.nHRST, freeCount := s.freeCount, pending := s.pending }) ∧
    (s.nRESET = false → exec (.deviceReset ⟨.full, bits, held⟩) s = .next s) ∧
    (s.nHRST = true → s.session.host ≠ .attached →
      exec (.hostLinkReset ⟨.full, bits⟩) s = .next { port with nHRST := false }) ∧
    (s.nHRST = true → s.session.host = .attached →
      ∃ u, SweepStarted .host port u ∧ exec (.hostLinkReset ⟨.full, bits⟩) s = .next { u with nHRST := false }) ∧
    (s.nHRST = false → exec (.hostLinkReset ⟨.full, bits⟩) s = .next s) ∧
    exec .nresetRises s = .next { s with nRESET := true } ∧
    exec .nhrstReturningHigh s = .next { s with nHRST := true }

/-- A pulse shorter than its minimum is one event with one of two outcomes: taken as a reset, whole, or not taken, changing no state of the part; the
line is high afterwards in either (R201; which of them is a free value, log 9). A REQ write held at a fall of nRESET completes with LERR if the
pulse is taken (R193), and as usual if not (log 5). With the line low already nothing changes (log 8). -/
def Obligations.ShortPulseIsTakenOrNot : Prop :=
  ∀ (s : State) (bits : List Bool) (held : Option HeldWrite),
    let drawn : State := { s with freeCount := s.freeCount + 1 }
    (s.nRESET = true → ∃ t, exec (.deviceReset ⟨.short, bits, held⟩) s = .next t ∧
      ((held = none ∧ t = drawn) ∨ (∃ w, held = some w ∧ exec (heldCommand w) drawn = .next t) ∨
        t = { State.reset with
              store := s.store, rx := abandonedRx bits s, shifted := s.shifted,
              bus := if held.isSome then some { lerr := true, data := none } else s.bus,
              nHRST := s.nHRST, freeCount := s.freeCount + 1, pending := s.pending })) ∧
    (s.nRESET = false → exec (.deviceReset ⟨.short, bits, held⟩) s = .next s) ∧
    (s.nHRST = true →
      let port : State := { drawn with rx := abandonedRx bits s, slot := .empty, overrun := false, checkMode := false }
      ∃ t, exec (.hostLinkReset ⟨.short, bits⟩) s = .next t ∧
        (t = drawn ∨ (s.session.host ≠ .attached ∧ t = port) ∨ (s.session.host = .attached ∧ SweepStarted .host port t))) ∧
    (s.nHRST = false → exec (.hostLinkReset ⟨.short, bits⟩) s = .next s)
end

