-- ==== Sys2Proof/Laws/State.lean ====
section
/-! SUPPORT. State: what each primitive update leaves in each field, and how the per-side pairs, the record entries and the channels read
after an update. One lemma per field per update, true by rfl. -/

namespace Sys2Proof.Machine

/-! ## Pairs -/

theorem Per.get_set {α : Type} (p : Per α) (x y : Side) (a : α) : (p.set x a).get y = if y = x then a else p.get y := by
  cases x <;> cases y <;> rfl

@[simp] theorem Per.get_set_same {α : Type} (p : Per α) (x : Side) (a : α) : (p.set x a).get x = a := by cases x <;> rfl

@[simp] theorem Per.get_set_peer {α : Type} (p : Per α) (x : Side) (a : α) : (p.set x a).get (peer x) = p.get (peer x) := by
  cases x <;> rfl

@[simp] theorem Per.get_peer_set {α : Type} (p : Per α) (x : Side) (a : α) : (p.set (peer x) a).get x = p.get x := by
  cases x <;> rfl

@[simp] theorem peer_peer (x : Side) : peer (peer x) = x := by cases x <;> rfl

theorem peer_ne (x : Side) : peer x ≠ x := by cases x <;> decide

/-! ## Entries and channels -/

theorem entry_eq_of_records {s t : State} (h : t.records = s.records) (i : RecIdx) : t.entry i = s.entry i := by
  simp [State.entry, h]

theorem chan_eq_of_chans {s t : State} (h : t.chans = s.chans) (c : ChanNo) : t.chan c = s.chan c := by
  simp [State.chan, h]

@[simp] theorem entry_setEntry_same (s : State) (i : RecIdx) (e : Entry) : (s.setEntry i e).entry i = e := by
  simp [State.entry, State.setEntry]

theorem entry_setEntry_other (s : State) {i j : RecIdx} (e : Entry) (h : j ≠ i) : (s.setEntry i e).entry j = s.entry j := by
  have : (i : Nat) ≠ j := fun q => h (Fin.ext q.symm)
  simp [State.entry, State.setEntry, this]

@[simp] theorem chan_setChan_same (s : State) (c : ChanNo) (ch : Channel) : (s.setChan c ch).chan c = ch := by
  simp [State.chan, State.setChan]

theorem chan_setChan_other (s : State) {c d : ChanNo} (ch : Channel) (h : d ≠ c) : (s.setChan c ch).chan d = s.chan d := by
  have : (c : Nat) ≠ d := fun q => h (Fin.ext q.symm)
  simp [State.chan, State.setChan, this]

@[simp] theorem entry_setHeld_same (i : RecIdx) (h : Held) (s : State) :
    (setHeld i h s).entry i = { gen := (s.entry i).gen, custody := .held h } := by simp [setHeld]

theorem entry_setHeld_other {i j : RecIdx} (h : Held) (s : State) (hj : j ≠ i) : (setHeld i h s).entry j = s.entry j :=
  entry_setEntry_other s _ hj

@[simp] theorem entry_mapBuf_same (i : RecIdx) (f : Buffer → Buffer) (s : State) :
    (mapBuf i f s).entry i = { gen := (s.entry i).gen, custody := (s.entry i).custody.mapBuf f } := by simp [mapBuf]

theorem entry_mapBuf_other {i j : RecIdx} (f : Buffer → Buffer) (s : State) (hj : j ≠ i) :
    (mapBuf i f s).entry j = s.entry j := entry_setEntry_other s _ hj


/-! ## setEntry -/

@[simp] theorem setEntry_records (s : State) (i : RecIdx) (e : Entry) : (s.setEntry i e).records = s.records.set i e := rfl
@[simp] theorem setEntry_freeRecs (s : State) (i : RecIdx) (e : Entry) : (s.setEntry i e).freeRecs = s.freeRecs := rfl
@[simp] theorem setEntry_store (s : State) (i : RecIdx) (e : Entry) : (s.setEntry i e).store = s.store := rfl
@[simp] theorem setEntry_freeSegs (s : State) (i : RecIdx) (e : Entry) : (s.setEntry i e).freeSegs = s.freeSegs := rfl
@[simp] theorem setEntry_charge (s : State) (i : RecIdx) (e : Entry) : (s.setEntry i e).charge = s.charge := rfl
@[simp] theorem setEntry_quota (s : State) (i : RecIdx) (e : Entry) : (s.setEntry i e).quota = s.quota := rfl
@[simp] theorem setEntry_watermark (s : State) (i : RecIdx) (e : Entry) : (s.setEntry i e).watermark = s.watermark := rfl
@[simp] theorem setEntry_chans (s : State) (i : RecIdx) (e : Entry) : (s.setEntry i e).chans = s.chans := rfl
@[simp] theorem setEntry_rr (s : State) (i : RecIdx) (e : Entry) : (s.setEntry i e).rr = s.rr := rfl
@[simp] theorem setEntry_prescaler (s : State) (i : RecIdx) (e : Entry) : (s.setEntry i e).prescaler = s.prescaler := rfl
@[simp] theorem setEntry_ticksDue (s : State) (i : RecIdx) (e : Entry) : (s.setEntry i e).ticksDue = s.ticksDue := rfl
@[simp] theorem setEntry_jobs (s : State) (i : RecIdx) (e : Entry) : (s.setEntry i e).jobs = s.jobs := rfl
@[simp] theorem setEntry_progress (s : State) (i : RecIdx) (e : Entry) : (s.setEntry i e).progress = s.progress := rfl
@[simp] theorem setEntry_session (s : State) (i : RecIdx) (e : Entry) : (s.setEntry i e).session = s.session := rfl
@[simp] theorem setEntry_latched (s : State) (i : RecIdx) (e : Entry) : (s.setEntry i e).latched = s.latched := rfl
@[simp] theorem setEntry_enables (s : State) (i : RecIdx) (e : Entry) : (s.setEntry i e).enables = s.enables := rfl
@[simp] theorem setEntry_rx (s : State) (i : RecIdx) (e : Entry) : (s.setEntry i e).rx = s.rx := rfl
@[simp] theorem setEntry_shifted (s : State) (i : RecIdx) (e : Entry) : (s.setEntry i e).shifted = s.shifted := rfl
@[simp] theorem setEntry_slot (s : State) (i : RecIdx) (e : Entry) : (s.setEntry i e).slot = s.slot := rfl
@[simp] theorem setEntry_overrun (s : State) (i : RecIdx) (e : Entry) : (s.setEntry i e).overrun = s.overrun := rfl
@[simp] theorem setEntry_checkMode (s : State) (i : RecIdx) (e : Entry) : (s.setEntry i e).checkMode = s.checkMode := rfl
@[simp] theorem setEntry_args (s : State) (i : RecIdx) (e : Entry) : (s.setEntry i e).args = s.args := rfl
@[simp] theorem setEntry_req (s : State) (i : RecIdx) (e : Entry) : (s.setEntry i e).req = s.req := rfl
@[simp] theorem setEntry_stat (s : State) (i : RecIdx) (e : Entry) : (s.setEntry i e).stat = s.stat := rfl
@[simp] theorem setEntry_res (s : State) (i : RecIdx) (e : Entry) : (s.setEntry i e).res = s.res := rfl
@[simp] theorem setEntry_aperture (s : State) (i : RecIdx) (e : Entry) : (s.setEntry i e).aperture = s.aperture := rfl
@[simp] theorem setEntry_bus (s : State) (i : RecIdx) (e : Entry) : (s.setEntry i e).bus = s.bus := rfl
@[simp] theorem setEntry_nRESET (s : State) (i : RecIdx) (e : Entry) : (s.setEntry i e).nRESET = s.nRESET := rfl
@[simp] theorem setEntry_nHRST (s : State) (i : RecIdx) (e : Entry) : (s.setEntry i e).nHRST = s.nHRST := rfl
@[simp] theorem setEntry_freeCount (s : State) (i : RecIdx) (e : Entry) : (s.setEntry i e).freeCount = s.freeCount := rfl
@[simp] theorem setEntry_pending (s : State) (i : RecIdx) (e : Entry) : (s.setEntry i e).pending = s.pending := rfl
@[simp] theorem setEntry_chan (s : State) (i : RecIdx) (e : Entry) (k : ChanNo) : (s.setEntry i e).chan k = s.chan k := rfl

/-! ## setChan -/

@[simp] theorem setChan_records (s : State) (c : ChanNo) (ch : Channel) : (s.setChan c ch).records = s.records := rfl
@[simp] theorem setChan_freeRecs (s : State) (c : ChanNo) (ch : Channel) : (s.setChan c ch).freeRecs = s.freeRecs := rfl
@[simp] theorem setChan_store (s : State) (c : ChanNo) (ch : Channel) : (s.setChan c ch).store = s.store := rfl
@[simp] theorem setChan_freeSegs (s : State) (c : ChanNo) (ch : Channel) : (s.setChan c ch).freeSegs = s.freeSegs := rfl
@[simp] theorem setChan_charge (s : State) (c : ChanNo) (ch : Channel) : (s.setChan c ch).charge = s.charge := rfl
@[simp] theorem setChan_quota (s : State) (c : ChanNo) (ch : Channel) : (s.setChan c ch).quota = s.quota := rfl
@[simp] theorem setChan_watermark (s : State) (c : ChanNo) (ch : Channel) : (s.setChan c ch).watermark = s.watermark := rfl
@[simp] theorem setChan_chans (s : State) (c : ChanNo) (ch : Channel) : (s.setChan c ch).chans = s.chans.set c ch := rfl
@[simp] theorem setChan_rr (s : State) (c : ChanNo) (ch : Channel) : (s.setChan c ch).rr = s.rr := rfl
@[simp] theorem setChan_prescaler (s : State) (c : ChanNo) (ch : Channel) : (s.setChan c ch).prescaler = s.prescaler := rfl
@[simp] theorem setChan_ticksDue (s : State) (c : ChanNo) (ch : Channel) : (s.setChan c ch).ticksDue = s.ticksDue := rfl
@[simp] theorem setChan_jobs (s : State) (c : ChanNo) (ch : Channel) : (s.setChan c ch).jobs = s.jobs := rfl
@[simp] theorem setChan_progress (s : State) (c : ChanNo) (ch : Channel) : (s.setChan c ch).progress = s.progress := rfl
@[simp] theorem setChan_session (s : State) (c : ChanNo) (ch : Channel) : (s.setChan c ch).session = s.session := rfl
@[simp] theorem setChan_latched (s : State) (c : ChanNo) (ch : Channel) : (s.setChan c ch).latched = s.latched := rfl
@[simp] theorem setChan_enables (s : State) (c : ChanNo) (ch : Channel) : (s.setChan c ch).enables = s.enables := rfl
@[simp] theorem setChan_rx (s : State) (c : ChanNo) (ch : Channel) : (s.setChan c ch).rx = s.rx := rfl
@[simp] theorem setChan_shifted (s : State) (c : ChanNo) (ch : Channel) : (s.setChan c ch).shifted = s.shifted := rfl
@[simp] theorem setChan_slot (s : State) (c : ChanNo) (ch : Channel) : (s.setChan c ch).slot = s.slot := rfl
@[simp] theorem setChan_overrun (s : State) (c : ChanNo) (ch : Channel) : (s.setChan c ch).overrun = s.overrun := rfl
@[simp] theorem setChan_checkMode (s : State) (c : ChanNo) (ch : Channel) : (s.setChan c ch).checkMode = s.checkMode := rfl
@[simp] theorem setChan_args (s : State) (c : ChanNo) (ch : Channel) : (s.setChan c ch).args = s.args := rfl
@[simp] theorem setChan_req (s : State) (c : ChanNo) (ch : Channel) : (s.setChan c ch).req = s.req := rfl
@[simp] theorem setChan_stat (s : State) (c : ChanNo) (ch : Channel) : (s.setChan c ch).stat = s.stat := rfl
@[simp] theorem setChan_res (s : State) (c : ChanNo) (ch : Channel) : (s.setChan c ch).res = s.res := rfl
@[simp] theorem setChan_aperture (s : State) (c : ChanNo) (ch : Channel) : (s.setChan c ch).aperture = s.aperture := rfl
@[simp] theorem setChan_bus (s : State) (c : ChanNo) (ch : Channel) : (s.setChan c ch).bus = s.bus := rfl
@[simp] theorem setChan_nRESET (s : State) (c : ChanNo) (ch : Channel) : (s.setChan c ch).nRESET = s.nRESET := rfl
@[simp] theorem setChan_nHRST (s : State) (c : ChanNo) (ch : Channel) : (s.setChan c ch).nHRST = s.nHRST := rfl
@[simp] theorem setChan_freeCount (s : State) (c : ChanNo) (ch : Channel) : (s.setChan c ch).freeCount = s.freeCount := rfl
@[simp] theorem setChan_pending (s : State) (c : ChanNo) (ch : Channel) : (s.setChan c ch).pending = s.pending := rfl
@[simp] theorem setChan_entry (s : State) (c : ChanNo) (ch : Channel) (j : RecIdx) : (s.setChan c ch).entry j = s.entry j := rfl

/-! ## setHeld -/

@[simp] theorem setHeld_records (i : RecIdx) (h : Held) (s : State) : (setHeld i h s).records = s.records.set i { s.entry i with custody := .held h } := rfl
@[simp] theorem setHeld_freeRecs (i : RecIdx) (h : Held) (s : State) : (setHeld i h s).freeRecs = s.freeRecs := rfl
@[simp] theorem setHeld_store (i : RecIdx) (h : Held) (s : State) : (setHeld i h s).store = s.store := rfl
@[simp] theorem setHeld_freeSegs (i : RecIdx) (h : Held) (s : State) : (setHeld i h s).freeSegs = s.freeSegs := rfl
@[simp] theorem setHeld_charge (i : RecIdx) (h : Held) (s : State) : (setHeld i h s).charge = s.charge := rfl
@[simp] theorem setHeld_quota (i : RecIdx) (h : Held) (s : State) : (setHeld i h s).quota = s.quota := rfl
@[simp] theorem setHeld_watermark (i : RecIdx) (h : Held) (s : State) : (setHeld i h s).watermark = s.watermark := rfl
@[simp] theorem setHeld_chans (i : RecIdx) (h : Held) (s : State) : (setHeld i h s).chans = s.chans := rfl
@[simp] theorem setHeld_rr (i : RecIdx) (h : Held) (s : State) : (setHeld i h s).rr = s.rr := rfl
@[simp] theorem setHeld_prescaler (i : RecIdx) (h : Held) (s : State) : (setHeld i h s).prescaler = s.prescaler := rfl
@[simp] theorem setHeld_ticksDue (i : RecIdx) (h : Held) (s : State) : (setHeld i h s).ticksDue = s.ticksDue := rfl
@[simp] theorem setHeld_jobs (i : RecIdx) (h : Held) (s : State) : (setHeld i h s).jobs = s.jobs := rfl
@[simp] theorem setHeld_progress (i : RecIdx) (h : Held) (s : State) : (setHeld i h s).progress = s.progress := rfl
@[simp] theorem setHeld_session (i : RecIdx) (h : Held) (s : State) : (setHeld i h s).session = s.session := rfl
@[simp] theorem setHeld_latched (i : RecIdx) (h : Held) (s : State) : (setHeld i h s).latched = s.latched := rfl
@[simp] theorem setHeld_enables (i : RecIdx) (h : Held) (s : State) : (setHeld i h s).enables = s.enables := rfl
@[simp] theorem setHeld_rx (i : RecIdx) (h : Held) (s : State) : (setHeld i h s).rx = s.rx := rfl
@[simp] theorem setHeld_shifted (i : RecIdx) (h : Held) (s : State) : (setHeld i h s).shifted = s.shifted := rfl
@[simp] theorem setHeld_slot (i : RecIdx) (h : Held) (s : State) : (setHeld i h s).slot = s.slot := rfl
@[simp] theorem setHeld_overrun (i : RecIdx) (h : Held) (s : State) : (setHeld i h s).overrun = s.overrun := rfl
@[simp] theorem setHeld_checkMode (i : RecIdx) (h : Held) (s : State) : (setHeld i h s).checkMode = s.checkMode := rfl
@[simp] theorem setHeld_args (i : RecIdx) (h : Held) (s : State) : (setHeld i h s).args = s.args := rfl
@[simp] theorem setHeld_req (i : RecIdx) (h : Held) (s : State) : (setHeld i h s).req = s.req := rfl
@[simp] theorem setHeld_stat (i : RecIdx) (h : Held) (s : State) : (setHeld i h s).stat = s.stat := rfl
@[simp] theorem setHeld_res (i : RecIdx) (h : Held) (s : State) : (setHeld i h s).res = s.res := rfl
@[simp] theorem setHeld_aperture (i : RecIdx) (h : Held) (s : State) : (setHeld i h s).aperture = s.aperture := rfl
@[simp] theorem setHeld_bus (i : RecIdx) (h : Held) (s : State) : (setHeld i h s).bus = s.bus := rfl
@[simp] theorem setHeld_nRESET (i : RecIdx) (h : Held) (s : State) : (setHeld i h s).nRESET = s.nRESET := rfl
@[simp] theorem setHeld_nHRST (i : RecIdx) (h : Held) (s : State) : (setHeld i h s).nHRST = s.nHRST := rfl
@[simp] theorem setHeld_freeCount (i : RecIdx) (h : Held) (s : State) : (setHeld i h s).freeCount = s.freeCount := rfl
@[simp] theorem setHeld_pending (i : RecIdx) (h : Held) (s : State) : (setHeld i h s).pending = s.pending := rfl
@[simp] theorem setHeld_chan (i : RecIdx) (h : Held) (s : State) (k : ChanNo) : (setHeld i h s).chan k = s.chan k := rfl

/-! ## mapBuf -/

@[simp] theorem mapBuf_records (i : RecIdx) (f : Buffer → Buffer) (s : State) : (mapBuf i f s).records = s.records.set i { s.entry i with custody := (s.entry i).custody.mapBuf f } := rfl
@[simp] theorem mapBuf_freeRecs (i : RecIdx) (f : Buffer → Buffer) (s : State) : (mapBuf i f s).freeRecs = s.freeRecs := rfl
@[simp] theorem mapBuf_store (i : RecIdx) (f : Buffer → Buffer) (s : State) : (mapBuf i f s).store = s.store := rfl
@[simp] theorem mapBuf_freeSegs (i : RecIdx) (f : Buffer → Buffer) (s : State) : (mapBuf i f s).freeSegs = s.freeSegs := rfl
@[simp] theorem mapBuf_charge (i : RecIdx) (f : Buffer → Buffer) (s : State) : (mapBuf i f s).charge = s.charge := rfl
@[simp] theorem mapBuf_quota (i : RecIdx) (f : Buffer → Buffer) (s : State) : (mapBuf i f s).quota = s.quota := rfl
@[simp] theorem mapBuf_watermark (i : RecIdx) (f : Buffer → Buffer) (s : State) : (mapBuf i f s).watermark = s.watermark := rfl
@[simp] theorem mapBuf_chans (i : RecIdx) (f : Buffer → Buffer) (s : State) : (mapBuf i f s).chans = s.chans := rfl
@[simp] theorem mapBuf_rr (i : RecIdx) (f : Buffer → Buffer) (s : State) : (mapBuf i f s).rr = s.rr := rfl
@[simp] theorem mapBuf_prescaler (i : RecIdx) (f : Buffer → Buffer) (s : State) : (mapBuf i f s).prescaler = s.prescaler := rfl
@[simp] theorem mapBuf_ticksDue (i : RecIdx) (f : Buffer → Buffer) (s : State) : (mapBuf i f s).ticksDue = s.ticksDue := rfl
@[simp] theorem mapBuf_jobs (i : RecIdx) (f : Buffer → Buffer) (s : State) : (mapBuf i f s).jobs = s.jobs := rfl
@[simp] theorem mapBuf_progress (i : RecIdx) (f : Buffer → Buffer) (s : State) : (mapBuf i f s).progress = s.progress := rfl
@[simp] theorem mapBuf_session (i : RecIdx) (f : Buffer → Buffer) (s : State) : (mapBuf i f s).session = s.session := rfl
@[simp] theorem mapBuf_latched (i : RecIdx) (f : Buffer → Buffer) (s : State) : (mapBuf i f s).latched = s.latched := rfl
@[simp] theorem mapBuf_enables (i : RecIdx) (f : Buffer → Buffer) (s : State) : (mapBuf i f s).enables = s.enables := rfl
@[simp] theorem mapBuf_rx (i : RecIdx) (f : Buffer → Buffer) (s : State) : (mapBuf i f s).rx = s.rx := rfl
@[simp] theorem mapBuf_shifted (i : RecIdx) (f : Buffer → Buffer) (s : State) : (mapBuf i f s).shifted = s.shifted := rfl
@[simp] theorem mapBuf_slot (i : RecIdx) (f : Buffer → Buffer) (s : State) : (mapBuf i f s).slot = s.slot := rfl
@[simp] theorem mapBuf_overrun (i : RecIdx) (f : Buffer → Buffer) (s : State) : (mapBuf i f s).overrun = s.overrun := rfl
@[simp] theorem mapBuf_checkMode (i : RecIdx) (f : Buffer → Buffer) (s : State) : (mapBuf i f s).checkMode = s.checkMode := rfl
@[simp] theorem mapBuf_args (i : RecIdx) (f : Buffer → Buffer) (s : State) : (mapBuf i f s).args = s.args := rfl
@[simp] theorem mapBuf_req (i : RecIdx) (f : Buffer → Buffer) (s : State) : (mapBuf i f s).req = s.req := rfl
@[simp] theorem mapBuf_stat (i : RecIdx) (f : Buffer → Buffer) (s : State) : (mapBuf i f s).stat = s.stat := rfl
@[simp] theorem mapBuf_res (i : RecIdx) (f : Buffer → Buffer) (s : State) : (mapBuf i f s).res = s.res := rfl
@[simp] theorem mapBuf_aperture (i : RecIdx) (f : Buffer → Buffer) (s : State) : (mapBuf i f s).aperture = s.aperture := rfl
@[simp] theorem mapBuf_bus (i : RecIdx) (f : Buffer → Buffer) (s : State) : (mapBuf i f s).bus = s.bus := rfl
@[simp] theorem mapBuf_nRESET (i : RecIdx) (f : Buffer → Buffer) (s : State) : (mapBuf i f s).nRESET = s.nRESET := rfl
@[simp] theorem mapBuf_nHRST (i : RecIdx) (f : Buffer → Buffer) (s : State) : (mapBuf i f s).nHRST = s.nHRST := rfl
@[simp] theorem mapBuf_freeCount (i : RecIdx) (f : Buffer → Buffer) (s : State) : (mapBuf i f s).freeCount = s.freeCount := rfl
@[simp] theorem mapBuf_pending (i : RecIdx) (f : Buffer → Buffer) (s : State) : (mapBuf i f s).pending = s.pending := rfl
@[simp] theorem mapBuf_chan (i : RecIdx) (f : Buffer → Buffer) (s : State) (k : ChanNo) : (mapBuf i f s).chan k = s.chan k := rfl

/-! ## latch -/

@[simp] theorem latch_records (x : Side) (e : Event) (s : State) : (latch x e s).records = s.records := rfl
@[simp] theorem latch_freeRecs (x : Side) (e : Event) (s : State) : (latch x e s).freeRecs = s.freeRecs := rfl
@[simp] theorem latch_store (x : Side) (e : Event) (s : State) : (latch x e s).store = s.store := rfl
@[simp] theorem latch_freeSegs (x : Side) (e : Event) (s : State) : (latch x e s).freeSegs = s.freeSegs := rfl
@[simp] theorem latch_charge (x : Side) (e : Event) (s : State) : (latch x e s).charge = s.charge := rfl
@[simp] theorem latch_quota (x : Side) (e : Event) (s : State) : (latch x e s).quota = s.quota := rfl
@[simp] theorem latch_watermark (x : Side) (e : Event) (s : State) : (latch x e s).watermark = s.watermark := rfl
@[simp] theorem latch_chans (x : Side) (e : Event) (s : State) : (latch x e s).chans = s.chans := rfl
@[simp] theorem latch_rr (x : Side) (e : Event) (s : State) : (latch x e s).rr = s.rr := rfl
@[simp] theorem latch_prescaler (x : Side) (e : Event) (s : State) : (latch x e s).prescaler = s.prescaler := rfl
@[simp] theorem latch_ticksDue (x : Side) (e : Event) (s : State) : (latch x e s).ticksDue = s.ticksDue := rfl
@[simp] theorem latch_jobs (x : Side) (e : Event) (s : State) : (latch x e s).jobs = s.jobs := rfl
@[simp] theorem latch_progress (x : Side) (e : Event) (s : State) : (latch x e s).progress = s.progress := rfl
@[simp] theorem latch_session (x : Side) (e : Event) (s : State) : (latch x e s).session = s.session := rfl
@[simp] theorem latch_latched (x : Side) (e : Event) (s : State) : (latch x e s).latched = s.latched.set x (s.latched.get x ||| eventMask e) := rfl
@[simp] theorem latch_enables (x : Side) (e : Event) (s : State) : (latch x e s).enables = s.enables := rfl
@[simp] theorem latch_rx (x : Side) (e : Event) (s : State) : (latch x e s).rx = s.rx := rfl
@[simp] theorem latch_shifted (x : Side) (e : Event) (s : State) : (latch x e s).shifted = s.shifted := rfl
@[simp] theorem latch_slot (x : Side) (e : Event) (s : State) : (latch x e s).slot = s.slot := rfl
@[simp] theorem latch_overrun (x : Side) (e : Event) (s : State) : (latch x e s).overrun = s.overrun := rfl
@[simp] theorem latch_checkMode (x : Side) (e : Event) (s : State) : (latch x e s).checkMode = s.checkMode := rfl
@[simp] theorem latch_args (x : Side) (e : Event) (s : State) : (latch x e s).args = s.args := rfl
@[simp] theorem latch_req (x : Side) (e : Event) (s : State) : (latch x e s).req = s.req := rfl
@[simp] theorem latch_stat (x : Side) (e : Event) (s : State) : (latch x e s).stat = s.stat := rfl
@[simp] theorem latch_res (x : Side) (e : Event) (s : State) : (latch x e s).res = s.res := rfl
@[simp] theorem latch_aperture (x : Side) (e : Event) (s : State) : (latch x e s).aperture = s.aperture := rfl
@[simp] theorem latch_bus (x : Side) (e : Event) (s : State) : (latch x e s).bus = s.bus := rfl
@[simp] theorem latch_nRESET (x : Side) (e : Event) (s : State) : (latch x e s).nRESET = s.nRESET := rfl
@[simp] theorem latch_nHRST (x : Side) (e : Event) (s : State) : (latch x e s).nHRST = s.nHRST := rfl
@[simp] theorem latch_freeCount (x : Side) (e : Event) (s : State) : (latch x e s).freeCount = s.freeCount := rfl
@[simp] theorem latch_pending (x : Side) (e : Event) (s : State) : (latch x e s).pending = s.pending := rfl
@[simp] theorem latch_entry (x : Side) (e : Event) (s : State) (j : RecIdx) : (latch x e s).entry j = s.entry j := rfl
@[simp] theorem latch_chan (x : Side) (e : Event) (s : State) (k : ChanNo) : (latch x e s).chan k = s.chan k := rfl

/-! ## addCharge -/

@[simp] theorem addCharge_records (x : Side) (n : Nat) (s : State) : (addCharge x n s).records = s.records := rfl
@[simp] theorem addCharge_freeRecs (x : Side) (n : Nat) (s : State) : (addCharge x n s).freeRecs = s.freeRecs := rfl
@[simp] theorem addCharge_store (x : Side) (n : Nat) (s : State) : (addCharge x n s).store = s.store := rfl
@[simp] theorem addCharge_freeSegs (x : Side) (n : Nat) (s : State) : (addCharge x n s).freeSegs = s.freeSegs := rfl
@[simp] theorem addCharge_charge (x : Side) (n : Nat) (s : State) : (addCharge x n s).charge = s.charge.set x (s.charge.get x + n) := rfl
@[simp] theorem addCharge_quota (x : Side) (n : Nat) (s : State) : (addCharge x n s).quota = s.quota := rfl
@[simp] theorem addCharge_watermark (x : Side) (n : Nat) (s : State) : (addCharge x n s).watermark = s.watermark := rfl
@[simp] theorem addCharge_chans (x : Side) (n : Nat) (s : State) : (addCharge x n s).chans = s.chans := rfl
@[simp] theorem addCharge_rr (x : Side) (n : Nat) (s : State) : (addCharge x n s).rr = s.rr := rfl
@[simp] theorem addCharge_prescaler (x : Side) (n : Nat) (s : State) : (addCharge x n s).prescaler = s.prescaler := rfl
@[simp] theorem addCharge_ticksDue (x : Side) (n : Nat) (s : State) : (addCharge x n s).ticksDue = s.ticksDue := rfl
@[simp] theorem addCharge_jobs (x : Side) (n : Nat) (s : State) : (addCharge x n s).jobs = s.jobs := rfl
@[simp] theorem addCharge_progress (x : Side) (n : Nat) (s : State) : (addCharge x n s).progress = s.progress := rfl
@[simp] theorem addCharge_session (x : Side) (n : Nat) (s : State) : (addCharge x n s).session = s.session := rfl
@[simp] theorem addCharge_latched (x : Side) (n : Nat) (s : State) : (addCharge x n s).latched = s.latched := rfl
@[simp] theorem addCharge_enables (x : Side) (n : Nat) (s : State) : (addCharge x n s).enables = s.enables := rfl
@[simp] theorem addCharge_rx (x : Side) (n : Nat) (s : State) : (addCharge x n s).rx = s.rx := rfl
@[simp] theorem addCharge_shifted (x : Side) (n : Nat) (s : State) : (addCharge x n s).shifted = s.shifted := rfl
@[simp] theorem addCharge_slot (x : Side) (n : Nat) (s : State) : (addCharge x n s).slot = s.slot := rfl
@[simp] theorem addCharge_overrun (x : Side) (n : Nat) (s : State) : (addCharge x n s).overrun = s.overrun := rfl
@[simp] theorem addCharge_checkMode (x : Side) (n : Nat) (s : State) : (addCharge x n s).checkMode = s.checkMode := rfl
@[simp] theorem addCharge_args (x : Side) (n : Nat) (s : State) : (addCharge x n s).args = s.args := rfl
@[simp] theorem addCharge_req (x : Side) (n : Nat) (s : State) : (addCharge x n s).req = s.req := rfl
@[simp] theorem addCharge_stat (x : Side) (n : Nat) (s : State) : (addCharge x n s).stat = s.stat := rfl
@[simp] theorem addCharge_res (x : Side) (n : Nat) (s : State) : (addCharge x n s).res = s.res := rfl
@[simp] theorem addCharge_aperture (x : Side) (n : Nat) (s : State) : (addCharge x n s).aperture = s.aperture := rfl
@[simp] theorem addCharge_bus (x : Side) (n : Nat) (s : State) : (addCharge x n s).bus = s.bus := rfl
@[simp] theorem addCharge_nRESET (x : Side) (n : Nat) (s : State) : (addCharge x n s).nRESET = s.nRESET := rfl
@[simp] theorem addCharge_nHRST (x : Side) (n : Nat) (s : State) : (addCharge x n s).nHRST = s.nHRST := rfl
@[simp] theorem addCharge_freeCount (x : Side) (n : Nat) (s : State) : (addCharge x n s).freeCount = s.freeCount := rfl
@[simp] theorem addCharge_pending (x : Side) (n : Nat) (s : State) : (addCharge x n s).pending = s.pending := rfl
@[simp] theorem addCharge_entry (x : Side) (n : Nat) (s : State) (j : RecIdx) : (addCharge x n s).entry j = s.entry j := rfl
@[simp] theorem addCharge_chan (x : Side) (n : Nat) (s : State) (k : ChanNo) : (addCharge x n s).chan k = s.chan k := rfl

/-! ## subCharge -/

@[simp] theorem subCharge_records (x : Side) (n : Nat) (s : State) : (subCharge x n s).records = s.records := rfl
@[simp] theorem subCharge_freeRecs (x : Side) (n : Nat) (s : State) : (subCharge x n s).freeRecs = s.freeRecs := rfl
@[simp] theorem subCharge_store (x : Side) (n : Nat) (s : State) : (subCharge x n s).store = s.store := rfl
@[simp] theorem subCharge_freeSegs (x : Side) (n : Nat) (s : State) : (subCharge x n s).freeSegs = s.freeSegs := rfl
@[simp] theorem subCharge_charge (x : Side) (n : Nat) (s : State) : (subCharge x n s).charge = s.charge.set x (s.charge.get x - n) := rfl
@[simp] theorem subCharge_quota (x : Side) (n : Nat) (s : State) : (subCharge x n s).quota = s.quota := rfl
@[simp] theorem subCharge_watermark (x : Side) (n : Nat) (s : State) : (subCharge x n s).watermark = s.watermark := rfl
@[simp] theorem subCharge_chans (x : Side) (n : Nat) (s : State) : (subCharge x n s).chans = s.chans := rfl
@[simp] theorem subCharge_rr (x : Side) (n : Nat) (s : State) : (subCharge x n s).rr = s.rr := rfl
@[simp] theorem subCharge_prescaler (x : Side) (n : Nat) (s : State) : (subCharge x n s).prescaler = s.prescaler := rfl
@[simp] theorem subCharge_ticksDue (x : Side) (n : Nat) (s : State) : (subCharge x n s).ticksDue = s.ticksDue := rfl
@[simp] theorem subCharge_jobs (x : Side) (n : Nat) (s : State) : (subCharge x n s).jobs = s.jobs := rfl
@[simp] theorem subCharge_progress (x : Side) (n : Nat) (s : State) : (subCharge x n s).progress = s.progress := rfl
@[simp] theorem subCharge_session (x : Side) (n : Nat) (s : State) : (subCharge x n s).session = s.session := rfl
@[simp] theorem subCharge_latched (x : Side) (n : Nat) (s : State) : (subCharge x n s).latched = s.latched := rfl
@[simp] theorem subCharge_enables (x : Side) (n : Nat) (s : State) : (subCharge x n s).enables = s.enables := rfl
@[simp] theorem subCharge_rx (x : Side) (n : Nat) (s : State) : (subCharge x n s).rx = s.rx := rfl
@[simp] theorem subCharge_shifted (x : Side) (n : Nat) (s : State) : (subCharge x n s).shifted = s.shifted := rfl
@[simp] theorem subCharge_slot (x : Side) (n : Nat) (s : State) : (subCharge x n s).slot = s.slot := rfl
@[simp] theorem subCharge_overrun (x : Side) (n : Nat) (s : State) : (subCharge x n s).overrun = s.overrun := rfl
@[simp] theorem subCharge_checkMode (x : Side) (n : Nat) (s : State) : (subCharge x n s).checkMode = s.checkMode := rfl
@[simp] theorem subCharge_args (x : Side) (n : Nat) (s : State) : (subCharge x n s).args = s.args := rfl
@[simp] theorem subCharge_req (x : Side) (n : Nat) (s : State) : (subCharge x n s).req = s.req := rfl
@[simp] theorem subCharge_stat (x : Side) (n : Nat) (s : State) : (subCharge x n s).stat = s.stat := rfl
@[simp] theorem subCharge_res (x : Side) (n : Nat) (s : State) : (subCharge x n s).res = s.res := rfl
@[simp] theorem subCharge_aperture (x : Side) (n : Nat) (s : State) : (subCharge x n s).aperture = s.aperture := rfl
@[simp] theorem subCharge_bus (x : Side) (n : Nat) (s : State) : (subCharge x n s).bus = s.bus := rfl
@[simp] theorem subCharge_nRESET (x : Side) (n : Nat) (s : State) : (subCharge x n s).nRESET = s.nRESET := rfl
@[simp] theorem subCharge_nHRST (x : Side) (n : Nat) (s : State) : (subCharge x n s).nHRST = s.nHRST := rfl
@[simp] theorem subCharge_freeCount (x : Side) (n : Nat) (s : State) : (subCharge x n s).freeCount = s.freeCount := rfl
@[simp] theorem subCharge_pending (x : Side) (n : Nat) (s : State) : (subCharge x n s).pending = s.pending := rfl
@[simp] theorem subCharge_entry (x : Side) (n : Nat) (s : State) (j : RecIdx) : (subCharge x n s).entry j = s.entry j := rfl
@[simp] theorem subCharge_chan (x : Side) (n : Nat) (s : State) (k : ChanNo) : (subCharge x n s).chan k = s.chan k := rfl

/-! ## release -/

@[simp] theorem release_records (c : ChanNo) (s : State) : (release c s).records = s.records := rfl
@[simp] theorem release_freeRecs (c : ChanNo) (s : State) : (release c s).freeRecs = s.freeRecs := rfl
@[simp] theorem release_store (c : ChanNo) (s : State) : (release c s).store = s.store := rfl
@[simp] theorem release_freeSegs (c : ChanNo) (s : State) : (release c s).freeSegs = s.freeSegs := rfl
@[simp] theorem release_charge (c : ChanNo) (s : State) : (release c s).charge = s.charge := rfl
@[simp] theorem release_quota (c : ChanNo) (s : State) : (release c s).quota = s.quota := rfl
@[simp] theorem release_watermark (c : ChanNo) (s : State) : (release c s).watermark = s.watermark := rfl
@[simp] theorem release_chans (c : ChanNo) (s : State) : (release c s).chans = s.chans.set c (settle (s.chan c)) := rfl
@[simp] theorem release_rr (c : ChanNo) (s : State) : (release c s).rr = s.rr := rfl
@[simp] theorem release_prescaler (c : ChanNo) (s : State) : (release c s).prescaler = s.prescaler := rfl
@[simp] theorem release_ticksDue (c : ChanNo) (s : State) : (release c s).ticksDue = s.ticksDue := rfl
@[simp] theorem release_jobs (c : ChanNo) (s : State) : (release c s).jobs = s.jobs := rfl
@[simp] theorem release_progress (c : ChanNo) (s : State) : (release c s).progress = s.progress := rfl
@[simp] theorem release_session (c : ChanNo) (s : State) : (release c s).session = s.session := rfl
@[simp] theorem release_latched (c : ChanNo) (s : State) : (release c s).latched = s.latched := rfl
@[simp] theorem release_enables (c : ChanNo) (s : State) : (release c s).enables = s.enables := rfl
@[simp] theorem release_rx (c : ChanNo) (s : State) : (release c s).rx = s.rx := rfl
@[simp] theorem release_shifted (c : ChanNo) (s : State) : (release c s).shifted = s.shifted := rfl
@[simp] theorem release_slot (c : ChanNo) (s : State) : (release c s).slot = s.slot := rfl
@[simp] theorem release_overrun (c : ChanNo) (s : State) : (release c s).overrun = s.overrun := rfl
@[simp] theorem release_checkMode (c : ChanNo) (s : State) : (release c s).checkMode = s.checkMode := rfl
@[simp] theorem release_args (c : ChanNo) (s : State) : (release c s).args = s.args := rfl
@[simp] theorem release_req (c : ChanNo) (s : State) : (release c s).req = s.req := rfl
@[simp] theorem release_stat (c : ChanNo) (s : State) : (release c s).stat = s.stat := rfl
@[simp] theorem release_res (c : ChanNo) (s : State) : (release c s).res = s.res := rfl
@[simp] theorem release_aperture (c : ChanNo) (s : State) : (release c s).aperture = s.aperture := rfl
@[simp] theorem release_bus (c : ChanNo) (s : State) : (release c s).bus = s.bus := rfl
@[simp] theorem release_nRESET (c : ChanNo) (s : State) : (release c s).nRESET = s.nRESET := rfl
@[simp] theorem release_nHRST (c : ChanNo) (s : State) : (release c s).nHRST = s.nHRST := rfl
@[simp] theorem release_freeCount (c : ChanNo) (s : State) : (release c s).freeCount = s.freeCount := rfl
@[simp] theorem release_pending (c : ChanNo) (s : State) : (release c s).pending = s.pending := rfl
@[simp] theorem release_entry (c : ChanNo) (s : State) (j : RecIdx) : (release c s).entry j = s.entry j := rfl

/-! ## tickAll -/

@[simp] theorem tickAll_records (s : State) : (tickAll s).records = s.records.map tickEntry := rfl
@[simp] theorem tickAll_freeRecs (s : State) : (tickAll s).freeRecs = s.freeRecs := rfl
@[simp] theorem tickAll_store (s : State) : (tickAll s).store = s.store := rfl
@[simp] theorem tickAll_freeSegs (s : State) : (tickAll s).freeSegs = s.freeSegs := rfl
@[simp] theorem tickAll_charge (s : State) : (tickAll s).charge = s.charge := rfl
@[simp] theorem tickAll_quota (s : State) : (tickAll s).quota = s.quota := rfl
@[simp] theorem tickAll_watermark (s : State) : (tickAll s).watermark = s.watermark := rfl
@[simp] theorem tickAll_chans (s : State) : (tickAll s).chans = s.chans := rfl
@[simp] theorem tickAll_rr (s : State) : (tickAll s).rr = s.rr := rfl
@[simp] theorem tickAll_prescaler (s : State) : (tickAll s).prescaler = s.prescaler := rfl
@[simp] theorem tickAll_ticksDue (s : State) : (tickAll s).ticksDue = s.ticksDue := rfl
@[simp] theorem tickAll_jobs (s : State) : (tickAll s).jobs = s.jobs := rfl
@[simp] theorem tickAll_progress (s : State) : (tickAll s).progress = s.progress := rfl
@[simp] theorem tickAll_session (s : State) : (tickAll s).session = s.session := rfl
@[simp] theorem tickAll_latched (s : State) : (tickAll s).latched = s.latched := rfl
@[simp] theorem tickAll_enables (s : State) : (tickAll s).enables = s.enables := rfl
@[simp] theorem tickAll_rx (s : State) : (tickAll s).rx = s.rx := rfl
@[simp] theorem tickAll_shifted (s : State) : (tickAll s).shifted = s.shifted := rfl
@[simp] theorem tickAll_slot (s : State) : (tickAll s).slot = s.slot := rfl
@[simp] theorem tickAll_overrun (s : State) : (tickAll s).overrun = s.overrun := rfl
@[simp] theorem tickAll_checkMode (s : State) : (tickAll s).checkMode = s.checkMode := rfl
@[simp] theorem tickAll_args (s : State) : (tickAll s).args = s.args := rfl
@[simp] theorem tickAll_req (s : State) : (tickAll s).req = s.req := rfl
@[simp] theorem tickAll_stat (s : State) : (tickAll s).stat = s.stat := rfl
@[simp] theorem tickAll_res (s : State) : (tickAll s).res = s.res := rfl
@[simp] theorem tickAll_aperture (s : State) : (tickAll s).aperture = s.aperture := rfl
@[simp] theorem tickAll_bus (s : State) : (tickAll s).bus = s.bus := rfl
@[simp] theorem tickAll_nRESET (s : State) : (tickAll s).nRESET = s.nRESET := rfl
@[simp] theorem tickAll_nHRST (s : State) : (tickAll s).nHRST = s.nHRST := rfl
@[simp] theorem tickAll_freeCount (s : State) : (tickAll s).freeCount = s.freeCount := rfl
@[simp] theorem tickAll_pending (s : State) : (tickAll s).pending = s.pending := rfl
@[simp] theorem tickAll_chan (s : State) (k : ChanNo) : (tickAll s).chan k = s.chan k := rfl

/-! ## busDone -/

@[simp] theorem busDone_records (d : Option Word) (s : State) : (busDone d s).records = s.records := rfl
@[simp] theorem busDone_freeRecs (d : Option Word) (s : State) : (busDone d s).freeRecs = s.freeRecs := rfl
@[simp] theorem busDone_store (d : Option Word) (s : State) : (busDone d s).store = s.store := rfl
@[simp] theorem busDone_freeSegs (d : Option Word) (s : State) : (busDone d s).freeSegs = s.freeSegs := rfl
@[simp] theorem busDone_charge (d : Option Word) (s : State) : (busDone d s).charge = s.charge := rfl
@[simp] theorem busDone_quota (d : Option Word) (s : State) : (busDone d s).quota = s.quota := rfl
@[simp] theorem busDone_watermark (d : Option Word) (s : State) : (busDone d s).watermark = s.watermark := rfl
@[simp] theorem busDone_chans (d : Option Word) (s : State) : (busDone d s).chans = s.chans := rfl
@[simp] theorem busDone_rr (d : Option Word) (s : State) : (busDone d s).rr = s.rr := rfl
@[simp] theorem busDone_prescaler (d : Option Word) (s : State) : (busDone d s).prescaler = s.prescaler := rfl
@[simp] theorem busDone_ticksDue (d : Option Word) (s : State) : (busDone d s).ticksDue = s.ticksDue := rfl
@[simp] theorem busDone_jobs (d : Option Word) (s : State) : (busDone d s).jobs = s.jobs := rfl
@[simp] theorem busDone_progress (d : Option Word) (s : State) : (busDone d s).progress = s.progress := rfl
@[simp] theorem busDone_session (d : Option Word) (s : State) : (busDone d s).session = s.session := rfl
@[simp] theorem busDone_latched (d : Option Word) (s : State) : (busDone d s).latched = s.latched := rfl
@[simp] theorem busDone_enables (d : Option Word) (s : State) : (busDone d s).enables = s.enables := rfl
@[simp] theorem busDone_rx (d : Option Word) (s : State) : (busDone d s).rx = s.rx := rfl
@[simp] theorem busDone_shifted (d : Option Word) (s : State) : (busDone d s).shifted = s.shifted := rfl
@[simp] theorem busDone_slot (d : Option Word) (s : State) : (busDone d s).slot = s.slot := rfl
@[simp] theorem busDone_overrun (d : Option Word) (s : State) : (busDone d s).overrun = s.overrun := rfl
@[simp] theorem busDone_checkMode (d : Option Word) (s : State) : (busDone d s).checkMode = s.checkMode := rfl
@[simp] theorem busDone_args (d : Option Word) (s : State) : (busDone d s).args = s.args := rfl
@[simp] theorem busDone_req (d : Option Word) (s : State) : (busDone d s).req = s.req := rfl
@[simp] theorem busDone_stat (d : Option Word) (s : State) : (busDone d s).stat = s.stat := rfl
@[simp] theorem busDone_res (d : Option Word) (s : State) : (busDone d s).res = s.res := rfl
@[simp] theorem busDone_aperture (d : Option Word) (s : State) : (busDone d s).aperture = s.aperture := rfl
@[simp] theorem busDone_bus (d : Option Word) (s : State) : (busDone d s).bus = some { lerr := false, data := d } := rfl
@[simp] theorem busDone_nRESET (d : Option Word) (s : State) : (busDone d s).nRESET = s.nRESET := rfl
@[simp] theorem busDone_nHRST (d : Option Word) (s : State) : (busDone d s).nHRST = s.nHRST := rfl
@[simp] theorem busDone_freeCount (d : Option Word) (s : State) : (busDone d s).freeCount = s.freeCount := rfl
@[simp] theorem busDone_pending (d : Option Word) (s : State) : (busDone d s).pending = s.pending := rfl
@[simp] theorem busDone_entry (d : Option Word) (s : State) (j : RecIdx) : (busDone d s).entry j = s.entry j := rfl
@[simp] theorem busDone_chan (d : Option Word) (s : State) (k : ChanNo) : (busDone d s).chan k = s.chan k := rfl

end Sys2Proof.Machine
end

