-- ==== Sys2Proof/Laws/Checks.lean ====
section
/-! SUPPORT. The check order and the two ports: one lemma for each check that says when it passes, what a port leaves untouched, and what
taking a request answers. -/

namespace Sys2Proof.Machine

/-! ## The checks -/

@[simp] theorem demand_pos {p : Prop} [Decidable p] {st : Status} {k : Verdict} (h : p) : demand p st k = k := if_pos h

theorem demand_neg {p : Prop} [Decidable p] {st : Status} {k : Verdict} (h : ¬p) : demand p st k = .refuse st := if_neg h

theorem demand_accept {p : Prop} [Decidable p] {st : Status} {k : Verdict} {r : List Byte} {t : State} :
    demand p st k = .accept r t ↔ p ∧ k = .accept r t := by
  by_cases h : p <;> simp [demand, h]

theorem demandSome_accept {α : Type} {o : Option α} {st : Status} {k : α → Verdict} {r : List Byte} {t : State} :
    demandSome o st k = .accept r t ↔ ∃ a, o = some a ∧ k a = .accept r t := by
  cases o <;> simp [demandSome]

@[simp] theorem demandSome_some {α : Type} (a : α) (st : Status) (k : α → Verdict) : demandSome (some a) st k = k a := rfl

@[simp] theorem demandSome_none {α : Type} (st : Status) (k : α → Verdict) : demandSome none st k = .refuse st := rfl

/-- Step 2 lets every request of an ATTACHED side pass (R14). -/
@[simp] theorem sessionCheck_attached (r : Req) : sessionCheck r .attached = none := by cases r <;> rfl

/-- Steps 1 and 2 pass for a request its side may issue while it is ATTACHED (R13, R14). -/
theorem whenPermitted_of {r : Req} {x : Side} {s : State} {k : Verdict} (ho : reqOpenTo x r = true)
    (ha : s.session.get x = .attached) : whenPermitted r x s k = k := by
  simp [whenPermitted, ho, ha]

theorem whenPermitted_accept {r : Req} {x : Side} {s : State} {k : Verdict} {b : List Byte} {t : State} :
    whenPermitted r x s k = .accept b t ↔ reqOpenTo x r = true ∧ sessionCheck r (s.session.get x) = none ∧ k = .accept b t := by
  unfold whenPermitted
  rw [demand_accept]
  cases h : sessionCheck r (s.session.get x) <;> simp

/-- Steps 4 and 5 pass for the current handle of a record the requester holds (R8, R15). -/
theorem withHeld_of {x : Side} {h : Half} {s : State} {k : RecIdx → Held → Verdict} {i : RecIdx} {r : Held}
    (hat : HeldAt h i r s) (hx : r.holder = x) : withHeld x h s k = k i r := by
  obtain ⟨rfl, hg, hc⟩ := hat
  simp [withHeld, withCurrent, hg, hc, hx]

theorem withCurrent_of {h : Half} {s : State} {k : RecIdx → Custody → Verdict} (hg : handleGen h = (s.entry (handleIdx h)).gen)
    (hc : (s.entry (handleIdx h)).custody ≠ .free) : withCurrent h s k = k (handleIdx h) (s.entry (handleIdx h)).custody := by
  simp [withCurrent, hg, hc]

theorem withHeld_accept {x : Side} {h : Half} {s : State} {k : RecIdx → Held → Verdict} {b : List Byte} {t : State} :
    withHeld x h s k = .accept b t ↔ ∃ i r, HeldAt h i r s ∧ r.holder = x ∧ k i r = .accept b t := by
  constructor
  · intro e
    simp only [withHeld, withCurrent, demand_accept] at e
    obtain ⟨hg, -, e⟩ := e
    split at e
    · next r hr =>
      rw [demand_accept] at e
      exact ⟨_, r, ⟨rfl, hg, hr⟩, e.1, e.2⟩
    · exact absurd e (by simp)
  · rintro ⟨i, r, hat, hx, e⟩
    rw [withHeld_of hat hx, e]

theorem withChan_accept {b : Byte} {k : ChanNo → Verdict} {r : List Byte} {t : State} :
    withChan b k = .accept r t ↔ ∃ c, chanOfByte b = some c ∧ k c = .accept r t := demandSome_accept

theorem withRoom_accept {x : Side} {c : ChanNo} {more : Bool} {s : State} {k : Verdict} {r : List Byte} {t : State} :
    withRoom x c more s k = .accept r t ↔
      ((s.chan c).enabled = true ∧ (s.chan c).source = x) ∧ more = true ∧ peerAbsentOn (s.chan c) s = false ∧
        (s.chan c).outstanding < (s.chan c).depth ∧ k = .accept r t := by
  simp only [withRoom, demand_accept]

theorem withResources_accept {x : Side} {n : Nat} {s : State} {k : RecIdx → Verdict} {r : List Byte} {t : State} :
    withResources x n s k = .accept r t ↔
      s.charge.get x + n ≤ s.quota.get x ∧ ∃ i rest, s.freeRecs = i :: rest ∧ n ≤ s.freeSegs.length ∧ k i = .accept r t := by
  unfold withResources
  rw [demand_accept]
  cases h : s.freeRecs with
  | nil => simp
  | cons i rest => simp [demand_accept]

/-! ## The ports -/

/-- Before any answer a port changes its own state alone: the receiver, the bits shifted out, OVERRUN, REQ and the bus. -/
theorem entered_eq (v : Via) (code : Byte) (s : State) :
    entered v code s =
      { s with rx := (entered v code s).rx, shifted := (entered v code s).shifted, overrun := (entered v code s).overrun,
               req := (entered v code s).req, bus := (entered v code s).bus } := by
  cases v with
  | host bits => simp only [entered, closeFrame]; split <;> split <;> (try split) <;> rfl
  | loc u l => simp only [entered]; split <;> rfl

section
variable (v : Via) (code : Byte) (s : State)
@[simp] theorem entered_records : (entered v code s).records = s.records := by rw [entered_eq]
@[simp] theorem entered_freeRecs : (entered v code s).freeRecs = s.freeRecs := by rw [entered_eq]
@[simp] theorem entered_store : (entered v code s).store = s.store := by rw [entered_eq]
@[simp] theorem entered_freeSegs : (entered v code s).freeSegs = s.freeSegs := by rw [entered_eq]
@[simp] theorem entered_charge : (entered v code s).charge = s.charge := by rw [entered_eq]
@[simp] theorem entered_quota : (entered v code s).quota = s.quota := by rw [entered_eq]
@[simp] theorem entered_watermark : (entered v code s).watermark = s.watermark := by rw [entered_eq]
@[simp] theorem entered_chans : (entered v code s).chans = s.chans := by rw [entered_eq]
@[simp] theorem entered_rr : (entered v code s).rr = s.rr := by rw [entered_eq]
@[simp] theorem entered_prescaler : (entered v code s).prescaler = s.prescaler := by rw [entered_eq]
@[simp] theorem entered_ticksDue : (entered v code s).ticksDue = s.ticksDue := by rw [entered_eq]
@[simp] theorem entered_jobs : (entered v code s).jobs = s.jobs := by rw [entered_eq]
@[simp] theorem entered_progress : (entered v code s).progress = s.progress := by rw [entered_eq]
@[simp] theorem entered_session : (entered v code s).session = s.session := by rw [entered_eq]
@[simp] theorem entered_latched : (entered v code s).latched = s.latched := by rw [entered_eq]
@[simp] theorem entered_enables : (entered v code s).enables = s.enables := by rw [entered_eq]
@[simp] theorem entered_slot : (entered v code s).slot = s.slot := by rw [entered_eq]
@[simp] theorem entered_checkMode : (entered v code s).checkMode = s.checkMode := by rw [entered_eq]
@[simp] theorem entered_args : (entered v code s).args = s.args := by rw [entered_eq]
@[simp] theorem entered_stat : (entered v code s).stat = s.stat := by rw [entered_eq]
@[simp] theorem entered_res : (entered v code s).res = s.res := by rw [entered_eq]
@[simp] theorem entered_aperture : (entered v code s).aperture = s.aperture := by rw [entered_eq]
@[simp] theorem entered_nRESET : (entered v code s).nRESET = s.nRESET := by rw [entered_eq]
@[simp] theorem entered_nHRST : (entered v code s).nHRST = s.nHRST := by rw [entered_eq]
@[simp] theorem entered_freeCount : (entered v code s).freeCount = s.freeCount := by rw [entered_eq]
@[simp] theorem entered_pending : (entered v code s).pending = s.pending := by rw [entered_eq]
@[simp] theorem entered_entry (i : RecIdx) : (entered v code s).entry i = s.entry i := entry_eq_of_records (entered_records v code s) i
@[simp] theorem entered_chan (c : ChanNo) : (entered v code s).chan c = s.chan c := chan_eq_of_chans (entered_chans v code s) c
@[simp] theorem entered_conditions (x : Side) : conditions (entered v code s) x = conditions s x := by
  simp [conditions, claimable, tallyCond]
@[simp] theorem entered_line (x : Side) : (entered v code s).line x = s.line x := by simp [State.line]
end

/-- An answer changes the slot alone, or STAT and RES0 to RES3 alone. -/
theorem answered_eq (v : Via) (code : Byte) (st : Status) (r : List Byte) (s : State) :
    answered v code st r s =
      { s with slot := (answered v code st r s).slot, stat := (answered v code st r s).stat, res := (answered v code st r s).res } := by
  cases v <;> rfl

/-! ## Taking a request -/

theorem exec_request (r : Req) (v : Via) (s : State) :
    exec (requestInstr r v) s = .next (takeRequest (reqCode r) (handlerOf r) v s) := by cases r <;> rfl

theorem takeRequest_accept {code : Byte} {h : Handler} {v : Via} {s u : State} {args result : List Byte}
    (hp : present v code s = .carried args) (hh : h v.side args (entered v code s) = .accept result u) :
    takeRequest code h v s = answered v code .ok result u := by simp only [takeRequest, hp, hh]

theorem takeRequest_refuse {code : Byte} {h : Handler} {v : Via} {s : State} {args : List Byte} {st : Status}
    (hp : present v code s = .carried args) (hh : h v.side args (entered v code s) = .refuse st) :
    takeRequest code h v s = answered v code st [] (entered v code s) := by simp only [takeRequest, hp, hh]

theorem takeRequest_turned {code : Byte} {h : Handler} {v : Via} {s : State} {st : Status} (hp : present v code s = .turned st) :
    takeRequest code h v s = answered v code st [] (entered v code s) := by simp only [takeRequest, hp]

theorem takeRequest_dropped {code : Byte} {h : Handler} {v : Via} {s : State} (hp : present v code s = .dropped) :
    takeRequest code h v s = entered v code s := by simp only [takeRequest, hp]

/-- A request that is presented and whose checks and effect accept is answered OK with its result bytes. -/
theorem exec_accept {r : Req} {v : Via} {s u : State} {args result : List Byte} (hp : Presents v r s args)
    (hh : handlerOf r v.side args (entered v (reqCode r) s) = .accept result u) :
    exec (requestInstr r v) s = .next (acceptedWith r v result u) := by
  rw [exec_request, takeRequest_accept hp hh]

/-- A request that is presented and refused by a check is answered that check's status code. -/
theorem exec_refuse {r : Req} {v : Via} {s : State} {args : List Byte} {st : Status} (hp : Presents v r s args)
    (hh : handlerOf r v.side args (entered v (reqCode r) s) = .refuse st) :
    exec (requestInstr r v) s = .next (refusedWith r v st s) := by
  rw [exec_request, takeRequest_refuse hp hh]

theorem HeldAt.entered {h : Half} {i : RecIdx} {r : Held} {s : State} (v : Via) (code : Byte) (hat : HeldAt h i r s) :
    HeldAt h i r (entered v code s) := by simpa [HeldAt] using hat

/-- A count read from an argument field goes back into the same two bytes. -/
theorem le16_arg16 (args : List Byte) (k : Nat) : le16 (arg16 args k) = half16 (argHalf args k) := by
  simp only [le16, half16, arg16, List.cons.injEq, and_true]
  constructor <;> apply BitVec.eq_of_toNat_eq <;> simp [BitVec.extractLsb'_toNat, Nat.shiftRight_eq_div_pow]

theorem chanOfByte_ofNat (c : ChanNo) : chanOfByte (BitVec.ofNat 8 c.val) = some c := by revert c; decide

theorem replyOfByte_ofNat (c : ChanNo) : replyOfByte (BitVec.ofNat 8 c.val) = some (some c) := by revert c; decide

/-- What taking a request can do: nothing beyond the port's entry, a refusal, or an acceptance. -/
theorem takeRequest_cases (code : Byte) (h : Handler) (v : Via) (s : State) :
    takeRequest code h v s = entered v code s ∨
    (∃ st, takeRequest code h v s = answered v code st [] (entered v code s)) ∨
    (∃ args result u, present v code s = .carried args ∧ h v.side args (entered v code s) = .accept result u ∧
      takeRequest code h v s = answered v code .ok result u) := by
  cases hp : present v code s with
  | dropped => exact Or.inl (takeRequest_dropped hp)
  | turned st => exact Or.inr (Or.inl ⟨st, takeRequest_turned hp⟩)
  | carried args =>
    cases hh : h v.side args (entered v code s) with
    | refuse st => exact Or.inr (Or.inl ⟨st, takeRequest_refuse hp hh⟩)
    | accept result u => exact Or.inr (Or.inr ⟨args, result, u, rfl, hh, takeRequest_accept hp hh⟩)

/-! ## Handles (R6) -/

/-- A handle is made of its generation and its index, so a current handle is the record's own. -/
theorem handleOf_parts (h : Half) : handleOf (handleGen h) (handleIdx h) = h := by
  apply BitVec.eq_of_getLsbD_eq
  intro i hi
  simp only [handleOf, handleGen, handleIdx, BitVec.ofFin_toFin, BitVec.getLsbD_append, BitVec.getLsbD_extractLsb']
  by_cases h7 : i < 7
  · simp [h7]
  · simp [h7, show i - 7 < 9 by omega, show 7 + (i - 7) = i by omega]

/-- A handle that passes the generation check is the handle R6 forms for the record it names. -/
theorem currentHandle_of_gen {s : State} {h : Half} (hg : handleGen h = (s.entry (handleIdx h)).gen) :
    currentHandle s (handleIdx h) = h := by
  rw [currentHandle, ← hg, handleOf_parts]

/-! ## The LOOKUP report (R6, R25, R196) -/

@[simp] theorem heldReport_handle (s : State) (i : RecIdx) (h : Held) : (heldReport s i h).handle = currentHandle s i := rfl

@[simp] theorem queuedReport_handle (s : State) (i : RecIdx) (q : Queued) : (queuedReport s i q).handle = currentHandle s i := rfl

/-- The layout has 16 bytes (R195). -/
theorem lookupLayout_length (r : LookupReport) : (lookupLayout r).length = 16 := rfl

/-- All a LOOKUP's acceptance says: the state is as it was, the argument is the record's current handle, and the answer is the layout of a report
of the record the handle names, HELD or QUEUED, whose handle is that argument. -/
theorem lookupRequest_accept {x : Side} {args bytes : List Byte} {s t : State} (ha : lookupRequest x args s = .accept bytes t) :
    t = s ∧ currentHandle s (handleIdx (argHalf args 0)) = argHalf args 0 ∧ ∃ r, bytes = lookupLayout r ∧ r.handle = argHalf args 0 ∧
      ((∃ h, (s.entry (handleIdx (argHalf args 0))).custody = .held h ∧ r = heldReport s (handleIdx (argHalf args 0)) h) ∨
        ∃ q, (s.entry (handleIdx (argHalf args 0))).custody = .queued q ∧ r = queuedReport s (handleIdx (argHalf args 0)) q) := by
  obtain ⟨-, -, hc⟩ := whenPermitted_accept.mp ha
  obtain ⟨hg, hk⟩ := demand_accept.mp hc
  obtain ⟨-, hk⟩ := demand_accept.mp hk
  have hh := currentHandle_of_gen hg
  generalize handleIdx (argHalf args 0) = i at *
  cases hq : (s.entry i).custody with
  | free => simp [hq] at hk
  | held h =>
    simp only [hq, Verdict.accept.injEq] at hk
    exact ⟨hk.2.symm, hh, heldReport s i h, hk.1.symm, hh, Or.inl ⟨h, rfl, rfl⟩⟩
  | queued q =>
    simp only [hq, Verdict.accept.injEq] at hk
    exact ⟨hk.2.symm, hh, queuedReport s i q, hk.1.symm, hh, Or.inr ⟨q, rfl, rfl⟩⟩

/-! ## Frames -/

/-- A frame that ends untaken began under a reset line or was abandoned by one (R166). -/
theorem frameTaken_eq_false {s : State} : frameTaken s = false ↔ rxNow s = .ignoring ∨ ∃ sent, rxNow s = .abandoned sent := by
  have hidle : rxNow s ≠ .idle := by
    unfold rxNow
    split
    · split <;> simp
    · assumption
  unfold frameTaken
  cases h : rxNow s <;> simp_all

/-- What a fall of a reset line makes of the receiver (R168, R180, R182). -/
theorem abandonFrame_eq (bits : List Bool) (s : State) : abandonFrame bits s = abandonedRx bits s := by
  unfold abandonFrame abandonedRx frameSent fetchBytes
  cases s.rx with
  | collecting st =>
    by_cases h : (wholeBytes bits).head? = some 127#8 <;> cases s.slot <;> cases s.checkMode <;> simp [h, fetchCode, statusByte]
  | _ => rfl

/-! ## Lanes of a bus word -/

/-- Each lane of a word made of four bytes is its byte. -/
@[simp] theorem lane_ofLanes (b0 b1 b2 b3 : Byte) :
    lane (ofLanes b0 b1 b2 b3) 0 = b0 ∧ lane (ofLanes b0 b1 b2 b3) 1 = b1 ∧ lane (ofLanes b0 b1 b2 b3) 2 = b2 ∧
      lane (ofLanes b0 b1 b2 b3) 3 = b3 := by
  refine ⟨?_, ?_, ?_, ?_⟩ <;>
  · apply BitVec.eq_of_getLsbD_eq
    intro i hi
    simp only [lane, ofLanes, BitVec.getLsbD_extractLsb', BitVec.getLsbD_append]
    rcases i with _ | _ | _ | _ | _ | _ | _ | _ | i <;> first | omega | simp

/-- Lane `k` of a word made of four bytes is byte `k`. -/
theorem lane_ofLanes_getD (b0 b1 b2 b3 : Byte) (k : Nat) (hk : k < 4) :
    lane (ofLanes b0 b1 b2 b3) k = [b0, b1, b2, b3].getD k 0 := by
  obtain ⟨h0, h1, h2, h3⟩ := lane_ofLanes b0 b1 b2 b3
  match k, hk with
  | 0, _ => exact h0
  | 1, _ => exact h1
  | 2, _ => exact h2
  | 3, _ => exact h3

end Sys2Proof.Machine
end

