-- ==== Sys2Proof/Laws/Memory.lean ====
section
/-! SUPPORT. The Segment Store: what a read after a write returns, that the canonical form is kept, and where a run of bytes goes. -/

namespace Sys2Proof.Machine

/-! ## One byte -/

theorem Memory.read_of_lt (m : Memory) (a : Nat) (h : ∀ c ∈ m, a < c.1) : m.read a = Memory.unlisted := by
  induction m with
  | nil => rfl
  | cons c rest ih =>
    obtain ⟨k, v⟩ := c
    have hk : a < k := h (k, v) (by simp)
    simp only [Memory.read, if_neg (Nat.ne_of_gt hk)]
    exact ih fun c hc => h c (List.mem_cons_of_mem _ hc)

theorem Memory.read_write_same (m : Memory) (a : Nat) (v : Byte) (h : m.Pairwise fun x y => x.1 < y.1) :
    (m.write a v).read a = v := by
  induction m with
  | nil =>
    by_cases hv : v = Memory.unlisted
    · simp [Memory.write, Memory.read, hv]
    · simp [Memory.write, Memory.read, hv]
  | cons c rest ih =>
    obtain ⟨k, w⟩ := c
    rw [List.pairwise_cons] at h
    have above : a ≤ k → Memory.read rest a = Memory.unlisted := fun hak =>
      Memory.read_of_lt rest a fun c hc => Nat.lt_of_le_of_lt hak (h.1 c hc)
    unfold Memory.write
    split
    · next hlt =>
      split
      · next hv => simp [Memory.read, Nat.ne_of_gt hlt, above (Nat.le_of_lt hlt), hv]
      · simp [Memory.read]
    · split
      · next heq =>
        split
        · next hv => rw [above (Nat.le_of_eq heq), hv]
        · simp [Memory.read]
      · next hne =>
        simp only [Memory.read, if_neg (fun q : k = a => hne q.symm)]
        exact ih h.2

theorem Memory.read_write_other (m : Memory) {a b : Nat} (v : Byte) (hab : b ≠ a)
    (h : m.Pairwise fun x y => x.1 < y.1) : (m.write a v).read b = m.read b := by
  have ne : ¬ a = b := fun q => hab q.symm
  induction m with
  | nil =>
    unfold Memory.write
    split <;> simp [Memory.read, ne]
  | cons c rest ih =>
    obtain ⟨k, w⟩ := c
    rw [List.pairwise_cons] at h
    unfold Memory.write
    split
    · split <;> simp [Memory.read, ne]
    · split
      · next heq =>
        have nk : ¬ k = b := fun q => hab (q.symm.trans heq.symm)
        split <;> simp [Memory.read, ne, nk]
      · simp only [Memory.read, ih h.2]

/-- Every cell of the memory after a write is an old one or the written one. -/
theorem Memory.mem_write {m : Memory} {a : Nat} {v : Byte} {c : Host.Cell} (h : c ∈ m.write a v) : c ∈ m ∨ c = (a, v) := by
  induction m with
  | nil =>
    unfold Memory.write at h
    split at h
    · exact Or.inl h
    · exact Or.inr (by simpa using h)
  | cons d rest ih =>
    obtain ⟨k, w⟩ := d
    unfold Memory.write at h
    split at h
    · split at h
      · exact Or.inl h
      · rcases List.mem_cons.1 h with h | h
        · exact Or.inr h
        · exact Or.inl h
    · split at h
      · split at h
        · exact Or.inl (List.mem_cons_of_mem _ h)
        · rcases List.mem_cons.1 h with h | h
          · exact Or.inr h
          · exact Or.inl (List.mem_cons_of_mem _ h)
      · rcases List.mem_cons.1 h with h | h
        · exact Or.inl (h ▸ List.mem_cons_self)
        · rcases ih h with h | h
          · exact Or.inl (List.mem_cons_of_mem _ h)
          · exact Or.inr h

/-- A write keeps the canonical form. -/
theorem Memory.write_wf (m : Memory) (a : Nat) (v : Byte) (h : Memory.wf m) : Memory.wf (m.write a v) := by
  obtain ⟨hp, hn⟩ := h
  induction m with
  | nil =>
    unfold Memory.write
    split
    · exact ⟨hp, hn⟩
    · next hv => exact ⟨by simp, by simpa using hv⟩
  | cons d rest ih =>
    obtain ⟨k, w⟩ := d
    have hp' := hp
    rw [List.pairwise_cons] at hp'
    unfold Memory.write
    split
    · next hlt =>
      split
      · exact ⟨hp, hn⟩
      · next hv =>
        refine ⟨List.pairwise_cons.2 ⟨?_, hp⟩, ?_⟩
        · intro c hc
          rcases List.mem_cons.1 hc with hc | hc
          · rw [hc]; exact hlt
          · exact Nat.lt_trans hlt (hp'.1 c hc)
        · intro c hc
          rcases List.mem_cons.1 hc with hc | hc
          · rw [hc]; exact hv
          · exact hn c hc
    · next hnl =>
      split
      · next heq =>
        split
        · exact ⟨hp'.2, fun c hc => hn c (List.mem_cons_of_mem _ hc)⟩
        · next hv =>
          refine ⟨List.pairwise_cons.2 ⟨?_, hp'.2⟩, ?_⟩
          · intro c hc; rw [heq]; exact hp'.1 c hc
          · intro c hc
            rcases List.mem_cons.1 hc with hc | hc
            · rw [hc]; exact hv
            · exact hn c (List.mem_cons_of_mem _ hc)
      · next hne =>
        obtain ⟨ihp, ihn⟩ := ih hp'.2 fun c hc => hn c (List.mem_cons_of_mem _ hc)
        refine ⟨List.pairwise_cons.2 ⟨?_, ihp⟩, ?_⟩
        · intro c hc
          rcases Memory.mem_write hc with hc | hc
          · exact hp'.1 c hc
          · rw [hc]; exact Nat.lt_of_le_of_ne (Nat.le_of_not_lt hnl) fun q => hne q.symm
        · intro c hc
          rcases List.mem_cons.1 hc with hc | hc
          · exact hn c (by rw [hc]; exact List.mem_cons_self)
          · exact ihn c hc

/-! ## Record offsets -/

/-- A record offset below the capacity has an address, and an address has an offset below the capacity. -/
theorem recAddr_isSome_iff (b : Buffer) (o : Nat) : (recAddr b o).isSome ↔ o < b.capacity := by
  simp only [recAddr, Option.isSome_map, Buffer.capacity, segBytes, Option.isSome_iff_exists, List.getElem?_eq_some_iff]
  constructor
  · rintro ⟨_, h, _⟩; omega
  · intro h; exact ⟨_, by omega, rfl⟩

/-- Every address of a record lies in the store. -/
theorem recAddr_lt {b : Buffer} {o a : Nat} (h : recAddr b o = some a) : a < 65536 := by
  simp only [recAddr, segBytes, Option.map_eq_some_iff] at h
  obtain ⟨g, -, rfl⟩ := h
  have := g.isLt
  omega

/-- Distinct record offsets of a record with distinct segments have distinct addresses. -/
theorem recAddr_injective {b : Buffer} (hd : b.segs.Nodup) {o p a : Nat} (ho : recAddr b o = some a)
    (hp : recAddr b p = some a) : o = p := by
  simp only [recAddr, segBytes, Option.map_eq_some_iff] at ho hp
  obtain ⟨g, hg, ga⟩ := ho
  obtain ⟨h, hh, ha⟩ := hp
  have hgh : g = h := by apply Fin.ext; omega
  subst hgh
  obtain ⟨l1, e1⟩ := List.getElem?_eq_some_iff.1 hg
  obtain ⟨l2, e2⟩ := List.getElem?_eq_some_iff.1 hh
  have := (List.Nodup.getElem_inj_iff hd (hi := l1) (hj := l2)).1 (e1.trans e2.symm)
  omega

/-! ## Runs of bytes -/

theorem writeRun_wf (m : Memory) (b : Buffer) (o : Nat) (data : List Byte) (h : Memory.wf m) :
    Memory.wf (writeRun m b o data) := by
  induction data generalizing m o with
  | nil => exact h
  | cons d rest ih =>
    unfold writeRun
    apply ih
    split
    · exact Memory.write_wf m _ d h
    · exact h

/-- A run of bytes lists no address outside the store. -/
theorem writeRun_below {m : Memory} {b : Buffer} {o : Nat} {data : List Byte} (h : ∀ c ∈ m, c.1 < 65536) :
    ∀ c ∈ writeRun m b o data, c.1 < 65536 := by
  induction data generalizing m o with
  | nil => exact h
  | cons d rest ih =>
    unfold writeRun
    apply ih
    intro c hc
    split at hc
    · next a ha =>
      rcases Memory.mem_write hc with hc | hc
      · exact h c hc
      · rw [hc]; exact recAddr_lt ha
    · exact h c hc

/-- A run of bytes changes no byte outside the addresses of its record offsets. -/
theorem read_writeRun_other (m : Memory) (b : Buffer) (o : Nat) (data : List Byte) (a : Nat) (hw : Memory.wf m)
    (h : ∀ k < data.length, recAddr b (o + k) ≠ some a) : (writeRun m b o data).read a = m.read a := by
  induction data generalizing m o with
  | nil => rfl
  | cons d rest ih =>
    unfold writeRun
    have h0 : recAddr b o ≠ some a := by simpa using h 0 (by simp)
    have hrest : ∀ k < rest.length, recAddr b (o + 1 + k) ≠ some a := fun k hk => by
      have := h (k + 1) (by simp; omega)
      rwa [show o + (k + 1) = o + 1 + k by omega] at this
    cases ha : recAddr b o with
    | none => exact ih m (o + 1) hw hrest
    | some a' =>
      have hne : a ≠ a' := fun q => h0 (by rw [ha, q])
      rw [ih _ (o + 1) (Memory.write_wf m a' d hw) hrest, Memory.read_write_other m d hne hw.1]

/-- A run of bytes written into a record with distinct segments stands at its record offsets. -/
theorem read_writeRun_same (m : Memory) (b : Buffer) (o : Nat) (data : List Byte) (hd : b.segs.Nodup) (hw : Memory.wf m)
    (k : Nat) (hk : k < data.length) (a : Nat) (ha : recAddr b (o + k) = some a) :
    (writeRun m b o data).read a = data[k] := by
  induction data generalizing m o k with
  | nil => simp at hk
  | cons d rest ih =>
    unfold writeRun
    cases k with
    | zero =>
      rw [Nat.add_zero] at ha
      simp only [ha]
      rw [read_writeRun_other _ b (o + 1) rest a (Memory.write_wf m a d hw) fun j _ q => by
        have := recAddr_injective hd ha q; omega]
      exact Memory.read_write_same m a d hw.1
    | succ k =>
      have ha' : recAddr b (o + 1 + k) = some a := by rwa [show o + 1 + k = o + (k + 1) by omega]
      simp only [List.getElem_cons_succ]
      apply ih _ (o + 1) _ k (by simpa using hk) ha'
      split
      · exact Memory.write_wf m _ d hw
      · exact hw

/-- A copy step keeps the canonical form. -/
theorem copySegment_wf (m : Memory) (src dst : Buffer) (k : Nat) (h : Memory.wf m) : Memory.wf (copySegment m src dst k) :=
  writeRun_wf m dst _ _ h

@[simp] theorem length_readRun (m : Memory) (b : Buffer) (o count : Nat) : (readRun m b o count).length = count := by
  simp [readRun]

theorem getElem_readRun (m : Memory) (b : Buffer) (o count k : Nat) (h : k < (readRun m b o count).length) :
    (readRun m b o count)[k] = readByte m b (o + k) := by simp [readRun]

end Sys2Proof.Machine
end

