-- ==== Sys2Proof/Laws/Ops.lean ====
section
/-! SUPPORT. The shared operations on the table: which fields each may change, and what each does, stated as the relations of
Sys2Proof/Safety.lean. -/

namespace Sys2Proof.Machine

/-! ## Operations that touch the table's own fields alone -/

/-- `t` differs from `s` at most in the records, the two free lists, the charges, the channels, the copy queue, the latched sets and the
aperture binding: the fields a retirement, a release or a requeue may change. -/
def TableOnly (s t : State) : Prop :=
  t = { s with records := t.records, freeRecs := t.freeRecs, freeSegs := t.freeSegs, charge := t.charge, chans := t.chans,
               jobs := t.jobs, progress := t.progress, latched := t.latched, aperture := t.aperture }

namespace TableOnly

theorem refl (s : State) : TableOnly s s := rfl

theorem trans {s t u : State} (h : TableOnly s t) (k : TableOnly t u) : TableOnly s u := by
  unfold TableOnly at *
  rw [h] at k
  exact k

theorem foldl {α : Type} {f : State → α → State} (h : ∀ s a, TableOnly s (f s a)) (l : List α) (s : State) :
    TableOnly s (l.foldl f s) := by
  induction l generalizing s with
  | nil => exact refl s
  | cons a rest ih => exact (h s a).trans (ih (f s a))

variable {s t : State} (h : TableOnly s t)
include h
theorem store : t.store = s.store := by rw [h]
theorem quota : t.quota = s.quota := by rw [h]
theorem watermark : t.watermark = s.watermark := by rw [h]
theorem rr : t.rr = s.rr := by rw [h]
theorem prescaler : t.prescaler = s.prescaler := by rw [h]
theorem ticksDue : t.ticksDue = s.ticksDue := by rw [h]
theorem session : t.session = s.session := by rw [h]
theorem enables : t.enables = s.enables := by rw [h]
theorem rx : t.rx = s.rx := by rw [h]
theorem shifted : t.shifted = s.shifted := by rw [h]
theorem slot : t.slot = s.slot := by rw [h]
theorem overrun : t.overrun = s.overrun := by rw [h]
theorem checkMode : t.checkMode = s.checkMode := by rw [h]
theorem args : t.args = s.args := by rw [h]
theorem req : t.req = s.req := by rw [h]
theorem stat : t.stat = s.stat := by rw [h]
theorem res : t.res = s.res := by rw [h]
theorem bus : t.bus = s.bus := by rw [h]
theorem nRESET : t.nRESET = s.nRESET := by rw [h]
theorem nHRST : t.nHRST = s.nHRST := by rw [h]
theorem freeCount : t.freeCount = s.freeCount := by rw [h]
theorem pending : t.pending = s.pending := by rw [h]

end TableOnly

theorem setEntry_tableOnly (s : State) (i : RecIdx) (e : Entry) : TableOnly s (s.setEntry i e) := rfl
theorem setChan_tableOnly (s : State) (c : ChanNo) (ch : Channel) : TableOnly s (s.setChan c ch) := rfl
theorem mapBuf_tableOnly (i : RecIdx) (f : Buffer → Buffer) (s : State) : TableOnly s (mapBuf i f s) := rfl
theorem setHeld_tableOnly (i : RecIdx) (h : Held) (s : State) : TableOnly s (setHeld i h s) := rfl
theorem addCharge_tableOnly (x : Side) (n : Nat) (s : State) : TableOnly s (addCharge x n s) := rfl
theorem subCharge_tableOnly (x : Side) (n : Nat) (s : State) : TableOnly s (subCharge x n s) := rfl
theorem moveCharge_tableOnly (x y : Side) (n : Nat) (s : State) : TableOnly s (moveCharge x y n s) := rfl
theorem latch_tableOnly (x : Side) (e : Event) (s : State) : TableOnly s (latch x e s) := rfl
theorem unpin_tableOnly (i : RecIdx) (s : State) : TableOnly s (unpin i s) := rfl

theorem releaseOrigin_tableOnly (o : Option ChanNo) (s : State) : TableOnly s (releaseOrigin o s) := by cases o <;> rfl

theorem unbindFrom_tableOnly (i : RecIdx) (s : State) : TableOnly s (unbindFrom i s) := by
  unfold unbindFrom; split <;> rfl

theorem takeSegs_tableOnly (n : Nat) (s : State) : TableOnly s (takeSegs n s) := by
  unfold takeSegs; dsimp only; split <;> rfl

theorem giveSegs_tableOnly (segs : List SegNo) (s : State) : TableOnly s (giveSegs segs s) := by
  unfold giveSegs; dsimp only; split <;> rfl

theorem removeJobs_tableOnly (p : Job → Bool) (s : State) : TableOnly s (removeJobs p s) := by
  have h := TableOnly.foldl (f := fun t j => unpin j.source t) (fun s j => unpin_tableOnly j.source s) (s.jobs.filter p) s
  exact h.trans rfl

theorem dropCloneJob_tableOnly (i : RecIdx) (f : Bool) (s : State) : TableOnly s (dropCloneJob i f s) := by
  unfold dropCloneJob; split
  · exact removeJobs_tableOnly _ s
  · exact .refl s

theorem freeEntry_tableOnly (i : RecIdx) (x : Side) (segs : List SegNo) (s : State) : TableOnly s (freeEntry i x segs s) :=
  ((subCharge_tableOnly x segs.length s).trans (giveSegs_tableOnly segs _)).trans rfl

theorem retirePath_tableOnly (i : RecIdx) (s : State) : TableOnly s (retirePath i s) := by
  unfold retirePath
  split
  · exact .refl s
  · exact (((dropCloneJob_tableOnly _ _ s).trans (unbindFrom_tableOnly i _)).trans (releaseOrigin_tableOnly _ _)).trans
      (freeEntry_tableOnly _ _ _ _)
  · exact ((dropCloneJob_tableOnly _ _ s).trans (unbindFrom_tableOnly i _)).trans (freeEntry_tableOnly _ _ _ _)

theorem purgeOne_tableOnly (c : ChanNo) (s : State) (i : RecIdx) : TableOnly s (purgeOne c s i) :=
  (setChan_tableOnly s c _).trans (retirePath_tableOnly i _)

theorem purgeQueue_tableOnly (c : ChanNo) (s : State) : TableOnly s (purgeQueue c s) := .foldl (purgeOne_tableOnly c) _ s

theorem flushPurge_tableOnly (x : Side) (s : State) : TableOnly s (flushPurge x s) :=
  .foldl (fun t c => by split; exacts [purgeQueue_tableOnly c t, .refl t]) _ s

theorem placeOn_tableOnly (i : RecIdx) (h : Held) (c : ChanNo) (r : Option ChanNo) (s : State) :
    TableOnly s (placeOn i h c r s) :=
  ((unbindFrom_tableOnly i s).trans (releaseOrigin_tableOnly h.origin _)).trans rfl

theorem claimRecord_tableOnly (x : Side) (c : ChanNo) (i : RecIdx) (q : Queued) (s : State) :
    TableOnly s (claimRecord x c i q s) := rfl

theorem takeRecord_tableOnly (i : RecIdx) (x : Side) (n len : Nat) (tag : Half) (f : Bool) (s : State) :
    TableOnly s (takeRecord i x n len tag f s) := by
  have h : TableOnly s { s with freeRecs := s.freeRecs.tail } := rfl
  exact (h.trans (takeSegs_tableOnly n _)).trans rfl

theorem makeClone_tableOnly (x : Side) (i c : RecIdx) (b : Buffer) (s : State) : TableOnly s (makeClone x i c b s) :=
  (takeRecord_tableOnly c x (cloneSegs b.length) b.length b.tag true s).trans rfl

theorem requeue_tableOnly (i : RecIdx) (c : ChanNo) (b : Buffer) (s : State) : TableOnly s (requeue i c b s) := rfl

theorem abortCopies_tableOnly (i : RecIdx) (s : State) : TableOnly s (abortCopies i s) :=
  (removeJobs_tableOnly _ s).trans (.foldl (fun t (j : Job) => retirePath_tableOnly j.clone t) _ _)

theorem expire_tableOnly (i : RecIdx) (h : Held) (c : ChanNo) (s : State) : TableOnly s (expire i h c s) := by
  have key : TableOnly s (unbindFrom i (abortCopies i s)) := (abortCopies_tableOnly i s).trans (unbindFrom_tableOnly i _)
  unfold expire
  dsimp only
  split
  · exact (key.trans rfl : TableOnly s (latch h.holder .copyAborted
      (moveCharge h.holder ((unbindFrom i (abortCopies i s)).chan c).source h.buf.segs.length
        (requeue i c h.buf (unbindFrom i (abortCopies i s)))))).trans rfl
  · exact (key.trans rfl : TableOnly s (moveCharge h.holder ((unbindFrom i (abortCopies i s)).chan c).source h.buf.segs.length
        (requeue i c h.buf (unbindFrom i (abortCopies i s))))).trans rfl

theorem sweepRecord_tableOnly (x : Side) (i : RecIdx) (s : State) : TableOnly s (sweepRecord x i s) := by
  unfold sweepRecord
  split
  · split
    · exact retirePath_tableOnly i s
    · exact .refl s
  · exact .refl s

theorem copyCompletion_tableOnly (s : State) : TableOnly s (copyCompletion s) := by
  unfold copyCompletion
  split
  · exact .refl s
  · split
    · rfl
    · exact .refl s

/-! ## Crossings of the watermark (R40, R41) -/

theorem takeSegs_eq (n : Nat) (s : State) :
    takeSegs n s = { s with freeSegs := s.freeSegs.drop n, latched := latchedAfterTake s (s.freeSegs.length - n) } := by
  unfold takeSegs latchedAfterTake
  simp only [List.length_drop]
  split <;> rfl

theorem giveSegs_eq (segs : List SegNo) (s : State) :
    giveSegs segs s =
      { s with freeSegs := s.freeSegs ++ segs, latched := latchedAfterGive s (s.freeSegs.length + segs.length) } := by
  unfold giveSegs latchedAfterGive
  simp only [List.length_append]
  split <;> rfl

/-! ## The removal of copy jobs (R105) -/

theorem mapBuf_id (c : Custody) : c.mapBuf (fun b => b) = c := by cases c <;> rfl

theorem mapBuf_mapBuf (f g : Buffer → Buffer) (c : Custody) : (c.mapBuf f).mapBuf g = c.mapBuf fun b => g (f b) := by
  cases c <;> rfl

@[simp] theorem unpinnedBy_zero (e : Entry) : unpinnedBy 0 e = e := by
  obtain ⟨g, c⟩ := e
  cases c <;> rfl

theorem entry_unpin (i j : RecIdx) (s : State) :
    (unpin i s).entry j = unpinnedBy (if i = j then 1 else 0) (s.entry j) := by
  by_cases h : j = i
  · subst h; simp [unpin, unpinnedBy]
  · rw [if_neg fun q => h q.symm, unpinnedBy_zero]
    exact entry_mapBuf_other _ s h

theorem unpinnedBy_unpinnedBy (m n : Nat) (e : Entry) : unpinnedBy n (unpinnedBy m e) = unpinnedBy (m + n) e := by
  obtain ⟨g, c⟩ := e
  cases c <;> simp [unpinnedBy, Custody.mapBuf, Nat.sub_sub]

theorem entry_unpin_foldl (l : List Job) (s : State) (i : RecIdx) :
    (l.foldl (fun t j => unpin j.source t) s).entry i = unpinnedBy (l.filter fun j => j.source == i).length (s.entry i) := by
  induction l generalizing s with
  | nil => simp
  | cons j rest ih =>
    rw [List.foldl_cons, ih, entry_unpin, unpinnedBy_unpinnedBy]
    by_cases h : j.source = i
    · simp [h, Nat.add_comm]
    · simp [h]

theorem unpin_foldl_eq (l : List Job) (s : State) :
    l.foldl (fun t j => unpin j.source t) s = { s with records := (l.foldl (fun t j => unpin j.source t) s).records } := by
  induction l generalizing s with
  | nil => rfl
  | cons j rest ih =>
    rw [List.foldl_cons, ih]
    rfl

theorem removeJobs_eq (p : Job → Bool) (s : State) :
    removeJobs p s = { s with records := (removeJobs p s).records, jobs := (removeJobs p s).jobs,
                              progress := (removeJobs p s).progress } := by
  unfold removeJobs
  rw [unpin_foldl_eq]

theorem removeJobs_spec (p : Job → Bool) (s : State) : JobsRemoved p s (removeJobs p s) := by
  refine ⟨rfl, fun i => ?_, ?_⟩
  · have : (removeJobs p s).entry i = ((s.jobs.filter p).foldl (fun t j => unpin j.source t) s).entry i := rfl
    rw [this, entry_unpin_foldl, List.filter_filter]
    simp only [Bool.and_comm]
  · show progressAfter p s.jobs s.progress = _
    cases s.jobs with
    | nil => rfl
    | cons j rest => cases h : p j <;> simp [progressAfter, h]

theorem startSweep_spec (x : Side) (s : State) : SweepStarted x s (startSweep x s) := by
  have h := removeJobs_spec (fun j => j.side == x)
    { s with session := s.session.set x (.sweeping (.next 0)), enables := s.enables.set x 0 }
  have e := removeJobs_eq (fun j => j.side == x)
    { s with session := s.session.set x (.sweeping (.next 0)), enables := s.enables.set x 0 }
  unfold startSweep
  dsimp only
  cases x
  · refine ⟨?_, ?_, h, ?_, ?_⟩
    all_goals (rw [e]; try rfl)
  · refine ⟨?_, ?_, h, rfl, ?_⟩
    all_goals rw [e]

/-! ## A record joins a channel (R60, R65) -/

theorem unbindFrom_eq (i : RecIdx) (s : State) :
    unbindFrom i s = { s with aperture := if s.aperture = some i then none else s.aperture } := by
  unfold unbindFrom; split <;> rfl

theorem settle_eq (ch : Channel) : settle ch = settledBy 1 ch := rfl

theorem chan_releaseOrigin (o : Option ChanNo) (s : State) (d : ChanNo) :
    (releaseOrigin o s).chan d = if o = some d then settledBy 1 (s.chan d) else s.chan d := by
  cases o with
  | none => simp [releaseOrigin]
  | some c =>
    by_cases h : d = c
    · subst h; simp [releaseOrigin, release, settle_eq]
    · have hn : ¬ c = d := fun q => h q.symm
      simp only [releaseOrigin, release, Option.some.injEq, if_neg hn]
      exact chan_setChan_other s _ h

theorem releaseOrigin_eq (o : Option ChanNo) (s : State) :
    releaseOrigin o s = { s with chans := (releaseOrigin o s).chans } := by cases o <;> rfl

/-- The release of the origin after the unbinding, as one step: the binding and the channels are all that changes. -/
theorem releaseUnbound_eq (i : RecIdx) (o : Option ChanNo) (s : State) :
    releaseOrigin o (unbindFrom i s) =
      { s with aperture := if s.aperture = some i then none else s.aperture, chans := (releaseOrigin o (unbindFrom i s)).chans } := by
  rw [releaseOrigin_eq, unbindFrom_eq]

theorem chan_releaseUnbound (i : RecIdx) (o : Option ChanNo) (s : State) (d : ChanNo) :
    (releaseOrigin o (unbindFrom i s)).chan d = if o = some d then settledBy 1 (s.chan d) else s.chan d := by
  rw [chan_releaseOrigin, chan_eq_of_chans (s := s) (t := unbindFrom i s) (by rw [unbindFrom_eq])]

theorem placeOn_spec (i : RecIdx) (h : Held) (c : ChanNo) (reply : Option ChanNo) (s : State) (ho : h.origin ≠ some c) :
    RecordPlaced i h c reply s (placeOn i h c reply s) := by
  have hc := chan_releaseUnbound i h.origin s
  have he := releaseUnbound_eq i h.origin s
  unfold placeOn
  dsimp only
  generalize releaseOrigin h.origin (unbindFrom i s) = t at hc he ⊢
  have hr : ∀ j, t.entry j = s.entry j := entry_eq_of_records (by rw [he])
  refine ⟨?_, fun j hj => ?_, ?_, ?_, fun d hd => ?_, ?_⟩
  · rw [setChan_entry, entry_setEntry_same, hr]
  · rw [setChan_entry, entry_setEntry_other _ _ hj, hr]
  · rw [setChan_aperture, setEntry_aperture, he]
  · rw [chan_setChan_same, setEntry_chan, hc, if_neg ho]
  · rw [chan_setChan_other _ _ hd, setEntry_chan, hc]
  · rw [he]; rfl

/-! ## Retirement (R21) -/

theorem dropCloneJob_spec (i : RecIdx) (filling : Bool) (s : State) :
    JobsRemoved (fun j => filling && j.clone == i) s (dropCloneJob i filling s) := by
  cases filling with
  | true =>
    have := removeJobs_spec (fun j => j.clone == i) s
    simpa [dropCloneJob] using this
  | false => exact ⟨by simp [dropCloneJob], by simp [dropCloneJob], by simp [dropCloneJob]⟩

theorem dropCloneJob_eq (i : RecIdx) (f : Bool) (s : State) :
    dropCloneJob i f s = { s with records := (dropCloneJob i f s).records, jobs := (dropCloneJob i f s).jobs,
                                  progress := (dropCloneJob i f s).progress } := by
  unfold dropCloneJob
  split
  · exact removeJobs_eq _ s
  · rfl

theorem retirePath_held (i : RecIdx) (h : Held) (s : State) (hc : (s.entry i).custody = .held h) :
    RetiredHeld i h s (retirePath i s) := by
  obtain ⟨j1, j2, j3⟩ := dropCloneJob_spec i h.buf.filling s
  have je := dropCloneJob_eq i h.buf.filling s
  unfold retirePath
  rw [hc]
  dsimp only
  generalize dropCloneJob i h.buf.filling s = t at j1 j2 j3 je ⊢
  have tr : ∀ d, t.chan d = s.chan d := chan_eq_of_chans (by rw [je])
  have rc := chan_releaseUnbound i h.origin t
  have re := releaseUnbound_eq i h.origin t
  generalize releaseOrigin h.origin (unbindFrom i t) = u at rc re ⊢
  have ue : ∀ j, u.entry j = t.entry j := entry_eq_of_records (by rw [re])
  unfold freeEntry
  dsimp only
  rw [giveSegs_eq]
  have gen (n : Nat) (e : Entry) : (unpinnedBy n e).gen = e.gen := rfl
  refine ⟨?_, ?_, ?_, fun c => ?_, ?_, ?_, ?_, fun j hj => ?_, ?_, ?_, ?_⟩
  · show u.jobs = _; rw [re]; exact j1
  · show u.progress = _; rw [re]; exact j3
  · show u.aperture = _; rw [re, je]
  · show u.chan c = _; rw [rc, tr]
  · show u.freeSegs ++ _ = _; rw [re, je]
  · show (subCharge h.holder h.buf.segs.length u).charge = _; rw [subCharge_charge, re, je]
  · have q := entry_setEntry_same u i { gen := (u.entry i).gen + 1, custody := .free }
    refine Eq.trans (b := (u.setEntry i { gen := (u.entry i).gen + 1, custody := .free }).entry i) rfl ?_
    rw [q, ue, j2, gen]
  · refine Eq.trans (b := (u.setEntry i { gen := (u.entry i).gen + 1, custody := .free }).entry j) rfl ?_
    rw [entry_setEntry_other _ _ hj, ue, j2]
  · show u.freeRecs ++ [i] = _; rw [re, je]
  · show latchedAfterGive (subCharge h.holder h.buf.segs.length u) _ = _
    have w : (subCharge h.holder h.buf.segs.length u).freeSegs = s.freeSegs := by rw [subCharge_freeSegs, re, je]
    have w2 : (subCharge h.holder h.buf.segs.length u).watermark = s.watermark := by rw [subCharge_watermark, re, je]
    have w3 : (subCharge h.holder h.buf.segs.length u).latched = s.latched := by rw [subCharge_latched, re, je]
    unfold latchedAfterGive
    rw [w, w2, w3]
  · rw [re, je]; rfl

/-! ## Ticks (R85) -/

/-- A tick acts on each entry by itself. -/
theorem entry_tickAll (s : State) (i : RecIdx) : (tickAll s).entry i = tickEntry (s.entry i) := by
  simp [State.entry, tickAll]

/-- A held write's command takes the write's request (R186). -/
theorem exec_heldCommand (w : HeldWrite) (s : State) : exec (heldCommand w) s = .next (completeWrite (some w) s) := by
  unfold heldCommand
  cases h : reqOfCode w.code with
  | none => rfl
  | some r =>
    have hc : reqCode r = w.code := by
      have := List.find?_some h
      simpa using this
    simp only [completeWrite, handlerOfCode, ← hc]
    cases r <;> rfl

end Sys2Proof.Machine
end

