-- ==== Sys2Proof/Tests/Slice0.lean ====
section
/-! SUPPORT. The model's own tests: ill-formed commands refused, the encodings of chapter 11, one step of each command on a small state, and for
every statement with hypotheses a state that meets them. -/

namespace Sys2Proof.Tests

open Sys2Proof.Machine

set_option Elab.async false

/-! ## Well-formed commands -/

theorem test_wf_unknown_code_refused :
    (Instr.unknownRequestCode 0x10 (.loc 0 0)).wellFormed = false ∧ (Instr.unknownRequestCode 0x7F (.host [])).wellFormed = false ∧
    (Instr.unknownRequestCode 0x7F (.loc 0 0)).wellFormed = true ∧ (Instr.unknownRequestCode 0x55 (.host [])).wellFormed = true := by
  decide

theorem test_wf_fetch_is_no_discarded_frame :
    (Instr.requestFrameDiscard (byteBits 0x7F)).wellFormed = false ∧ (Instr.requestFrameDiscard (byteBits 0x10)).wellFormed = true := by
  decide

theorem test_wf_bus_error_is_an_error :
    (Instr.busError { write := true, word := 0, data := 0, be := 0 }).wellFormed = false ∧
    (Instr.busError { write := true, word := 4, data := 0, be := 1 }).wellFormed = false ∧
    (Instr.busError { write := false, word := 5, data := 0, be := 0 }).wellFormed = false ∧
    (Instr.busError { write := false, word := 0x400, data := 0, be := 0 }).wellFormed = false ∧
    (Instr.busError { write := true, word := 4, data := 0, be := 14 }).wellFormed = true ∧
    (Instr.busError { write := true, word := 10, data := 0, be := 15 }).wellFormed = true ∧
    (Instr.busError { write := false, word := 11, data := 0, be := 0 }).wellFormed = true := by
  decide

/-! ## Encodings -/

/-- R178's two worked check bytes. -/
theorem test_crc8 : crc8 [1, 2, 3] = 0x48 ∧ crc8 [0x31, 0x32, 0x33, 0x34, 0x35, 0x36, 0x37, 0x38, 0x39] = 0xF4 := by
  decide +kernel

/-- R195: every code names its request, and no two share one. -/
theorem test_codes_name_their_requests : ∀ r ∈ allReqs, reqOfCode (reqCode r) = some r := by decide

theorem test_codes_of_the_table :
    [0x01, 0x02, 0x03, 0x10, 0x11, 0x12, 0x13, 0x14, 0x15, 0x16, 0x17, 0x18, 0x20, 0x21, 0x22, 0x23, 0x24, 0x25, 0x26, 0x28, 0x29, 0x2A,
      0x2B, 0x30, 0x31, 0x32, 0x38, 0x39, 0x3A, 0x40, 0x41, 0x7E].map reqOfCode = allReqs.map some ∧ reqOfCode 0x7F = none := by
  decide

/-- R6: generation in the high nine bits, index in the low seven. -/
theorem test_handle : handleOf 4 9 = 0x0209 ∧ handleGen 0x0209 = 4 ∧ handleIdx 0x0209 = 9 ∧ handleIdx 0xFFFF = 127 := by decide

theorem test_bits_travel_high_first :
    byteBits 0x7F = [false, true, true, true, true, true, true, true] ∧ wholeBytes (byteBits 0x15 ++ [true]) = [0x15] := by decide

/-- R199: sequence 3's status bytes 0x42 and 0x82, of a DETACHED HOST with check mode on. -/
theorem test_link_status :
    linkStatus { State.reset with checkMode := true, slot := .ready [0] } = 0x42 ∧
    linkStatus { State.reset with checkMode := true, slot := .fetched [0] } = 0x82 := by
  decide +kernel

/-! ## A small state

Both sides ATTACHED. Record 0: held by LOCAL from channel 0, its lease of count 1 reported, the source of the active job. Record 1: the clone. Records 2
and 5: queued on channels 0 and 1. Record 3: held by LOCAL from ALLOC. Record 4: held by HOST from channel 1, with reply channel 2. -/

/-- A buffer of segments and length, with no reply channel. -/
def buf (segs : List SegNo) (length : Nat) : Buffer := { segs := segs, length := length, tag := 7, reply := none, pins := 0, filling := false }

def rec0 : Held := { holder := .loc, origin := some 0, lease := some { remaining := 1, due := true }, buf := { buf [0] 4 with pins := 1 } }
def rec1 : Held := { holder := .loc, origin := none, lease := none, buf := { buf [1] 4 with filling := true } }
def rec2 : Queued := { chan := 0, buf := buf [2] 0 }
def rec3 : Held := { holder := .loc, origin := none, lease := none, buf := buf [3, 4] 130 }
def rec4 : Held :=
  { holder := .host, origin := some 1, lease := some { remaining := 5, due := false }, buf := { buf [5] 3 with reply := some 2 } }
def rec5 : Queued := { chan := 1, buf := buf [6] 8 }

def chan0 : Channel := { Channel.reset with
  enabled := true, source := .host, depth := 4, priority := 1, leaseTime := 2, flush := true, queue := [2], outstanding := 2 }
def chan1 : Channel := { Channel.reset with
  enabled := true, source := .loc, depth := 2, priority := 2, leaseTime := 9, queue := [5], outstanding := 2, tally := 3 }
def chan2 : Channel := { Channel.reset with enabled := true, source := .host, depth := 1, priority := 3 }
def chan3 : Channel := { Channel.reset with source := .loc, depth := 1, flush := true }

/-- The small state. -/
def small : State :=
  { State.reset with
    records := (((((State.reset.records.set 0 { gen := 0, custody := .held rec0 }).set 1 { gen := 0, custody := .held rec1 }).set 2
      { gen := 0, custody := .queued rec2 }).set 3 { gen := 0, custody := .held rec3 }).set 4 { gen := 0, custody := .held rec4 }).set 5
      { gen := 0, custody := .queued rec5 }
    freeRecs := (List.finRange 128).drop 6
    store := [(0, 0x11), (384, 0x22), (640, 0x33)]
    freeSegs := (List.finRange 512).drop 7
    charge := ⟨2, 5⟩
    chans := (((State.reset.chans.set 0 chan0).set 1 chan1).set 2 chan2).set 3 chan3
    jobs := [{ source := 0, clone := 1, side := .loc }]
    session := ⟨.attached, .attached⟩
    aperture := some 3
    watermark := 512
    pending := [.leaseExpiry 0] }

/-- The state after a command. -/
def after (c : Instr) (s : State) : State :=
  match exec c s with
  | .next t => t
  | _ => s

/-- LOCAL's arguments in ARG0 to ARG3. -/
def ask (bytes : List Byte) (s : State) : State :=
  { s with args := #v[resWord bytes 0, resWord bytes 1, resWord bytes 2, resWord bytes 3] }

/-- LOCAL's REQ write. -/
def loc : Via := .loc 0 0

/-- A HOST frame's bytes after the code. -/
def hst (bytes : List Byte) : Via := .host (bytes.flatMap byteBits)

/-- The state after a LOCAL request with these argument bytes. -/
def said (c : Via → Instr) (bytes : List Byte) (s : State) : State := after (c loc) (ask bytes s)

/-- LOCAL was answered this status and these first result bytes. -/
def toldLoc (st : Status) (result : List Byte) (t : State) : Bool :=
  lane t.stat 0 == statusByte st &&
    (List.range 16).all fun k => lane (t.res.toList.getD (k / 4) 0) (k % 4) == result.getD k 0

/-- HOST was answered this status and these result bytes. -/
def toldHost (st : Status) (result : List Byte) (t : State) : Bool := t.slot == .ready (statusByte st :: result)

/-! ## A state that meets every invariant, and the parts of it the small state needs -/

def rec4q : Queued := { chan := 1, buf := rec4.buf }
def rec6 : Held := { holder := .loc, origin := some 0, lease := some { remaining := 2, due := true }, buf := buf [7] 128 }

/-- The small state with HOST at the end of its sweep: record 4 stands queued on channel 1, which is flush-on-detach, and LOCAL holds one record more,
renewed after a tick reported it. -/
def quiet : State :=
  { small with
    records := (small.records.set 4 { gen := 0, custody := .queued rec4q }).set 6 { gen := 3, custody := .held rec6 }
    freeRecs := (List.finRange 128).drop 7
    freeSegs := (List.finRange 512).drop 8
    charge := ⟨1, 7⟩
    chans := (small.chans.set 0 { chan0 with outstanding := 3 }).set 1 { chan1 with queue := [4, 5], flush := true }
    session := ⟨.sweeping .done, .attached⟩ }

theorem quiet_live : ∀ i : RecIdx, (quiet.entry i).custody = .free ∨ i ∈ [0, 1, 2, 3, 4, 5, 6] := by decide +kernel

theorem quiet_freeRecords : FreeRecordsInv quiet := by
  refine ⟨(List.nodup_finRange 128).sublist (List.drop_sublist 7 _), ?_⟩
  decide +kernel

theorem quiet_segs : (List.finRange 128).flatMap (segsOf quiet) ++ quiet.freeSegs = List.finRange 512 := by decide +kernel

theorem quiet_segments : SegmentsInv quiet := by
  refine ⟨?_, ?_, ?_⟩
  · rw [List.nodup_append_comm, quiet_segs]
    exact List.nodup_finRange 512
  · decide +kernel
  · decide +kernel

theorem quiet_charges : ChargesInv quiet := by
  intro x; cases x <;> decide +kernel

/-- A record queued on a channel is record 2 on channel 0, or record 4 or 5 on channel 1. -/
theorem quiet_queued_on (i : RecIdx) (c : ChanNo) :
    (∃ q : Queued, (quiet.entry i).custody = .queued q ∧ q.chan = c) ↔ (i = 2 ∧ c = 0) ∨ ((i = 4 ∨ i = 5) ∧ c = 1) := by
  rcases quiet_live i with hi | hi
  · constructor
    · rintro ⟨q, hq, -⟩
      rw [hi] at hq
      cases hq
    · rintro (⟨rfl, -⟩ | ⟨rfl | rfl, -⟩) <;> exact absurd hi (by decide +kernel)
  · fin_cases hi
    · simp [show (quiet.entry 0).custody = .held rec0 from rfl]
    · simp [show (quiet.entry 1).custody = .held rec1 from rfl]
    · simp [show (quiet.entry 2).custody = .queued rec2 from rfl, rec2, eq_comm]
    · simp [show (quiet.entry 3).custody = .held rec3 from rfl]
    · simp [show (quiet.entry 4).custody = .queued rec4q from rfl, rec4q, eq_comm]
    · simp [show (quiet.entry 5).custody = .queued rec5 from rfl, rec5, eq_comm]
    · simp [show (quiet.entry 6).custody = .held rec6 from rfl]

theorem quiet_queues : QueuesInv quiet := by
  intro c
  simp only [quiet_queued_on]
  revert c
  decide +kernel

theorem quiet_outstanding : OutstandingInv quiet := by
  unfold OutstandingInv
  decide +kernel

theorem quiet_ranges : ChannelRangesInv quiet := by
  unfold ChannelRangesInv
  decide +kernel

theorem quiet_records : RecordsInv quiet := by
  intro i
  rcases quiet_live i with hi | hi
  · rw [hi]
    trivial
  · fin_cases hi
    · exact ⟨by decide, by decide, by decide, by decide, by rintro l ⟨⟩; decide⟩
    · exact ⟨by decide, by decide, by decide, by decide⟩
    · exact ⟨by decide, by decide, by decide⟩
    · exact ⟨by decide, by decide, by decide, by decide⟩
    · exact ⟨by decide, by decide, by decide⟩
    · exact ⟨by decide, by decide, by decide⟩
    · exact ⟨by decide, by decide, by decide, by decide, by rintro l ⟨⟩; decide⟩

theorem quiet_jobs : JobsInv quiet := by
  refine ⟨by decide, by decide, by decide +kernel, by decide +kernel, ?_, by rintro j ⟨⟩; decide +kernel, by intro h; cases h⟩
  intro i x
  revert i
  cases x <;> decide +kernel

theorem quiet_sessions : SessionsInv quiet := by
  rintro (_ | _) i h
  · exact absurd h (by revert i; decide +kernel)
  · trivial

theorem quiet_flush : FlushInv quiet := by
  unfold FlushInv
  decide +kernel

theorem small_aperture : ApertureInv small := by
  rintro i ⟨⟩
  decide +kernel

theorem small_events : EventsInv small := by
  refine ⟨by decide, ?_⟩
  rintro (_ | _) <;> decide

theorem small_port : PortInv small := ⟨fun h => (by cases h), fun _ => ⟨rfl, rfl⟩⟩

theorem small_store : StoreInv small := ⟨⟨by decide, by decide⟩, by decide⟩

theorem small_freeRecords : FreeRecordsInv small := by
  refine ⟨(List.nodup_finRange 128).sublist (List.drop_sublist 6 _), ?_⟩
  decide +kernel

theorem small_records : RecordsInv small := by
  intro i
  rcases (by decide +kernel : ∀ i : RecIdx, (small.entry i).custody = .free ∨ i ∈ [0, 1, 2, 3, 4, 5]) i with hi | hi
  · rw [hi]
    trivial
  · fin_cases hi
    · exact ⟨by decide, by decide, by decide, by decide, by rintro l ⟨⟩; decide⟩
    · exact ⟨by decide, by decide, by decide, by decide⟩
    · exact ⟨by decide, by decide, by decide⟩
    · exact ⟨by decide, by decide, by decide, by decide⟩
    · exact ⟨by decide, by decide, by decide, by decide, by rintro l ⟨⟩; decide⟩
    · exact ⟨by decide, by decide, by decide⟩

/-- The quiet state meets every invariant. -/
theorem quiet_inv : Inv quiet where
  freeRecords := quiet_freeRecords
  segments := quiet_segments
  charges := quiet_charges
  queues := quiet_queues
  outstanding := quiet_outstanding
  channelRanges := quiet_ranges
  records := quiet_records
  jobs := quiet_jobs
  aperture := by rintro i ⟨⟩; decide +kernel
  sessions := quiet_sessions
  flush := quiet_flush
  events := ⟨by decide, by rintro (_ | _) <;> decide⟩
  port := ⟨fun h => (by cases h), fun _ => ⟨rfl, rfl⟩⟩
  receiver := by rintro (h | h) <;> cases h
  store := ⟨⟨by decide, by decide⟩, by decide⟩
  poolRanges := ⟨by decide, by decide, by decide⟩
  resetHeld := by intro h; cases h

/-! ## One step of each command -/

theorem test_step_takes_the_front : (match step small with | .next t => t.pending | _ => [.tclkCycle]) = [] := by decide +kernel

theorem test_attach : let t := said .attach [] State.reset
    toldLoc .ok [0] t ∧ t.session = ⟨.detached, .attached⟩ ∧ t.latched = ⟨0x20, 0⟩ := by decide +kernel

theorem test_detach : let t := said .detach [] small
    toldLoc .ok [] t ∧ t.session.loc = .sweeping (.next 0) ∧ t.jobs = [] ∧ t.aperture = none ∧
    (t.entry 0).custody = .held { rec0 with buf := buf [0] 4 } := by decide +kernel

theorem test_evict : let t := said .evict [] small
    toldLoc .ok [] t ∧ t.session = ⟨.sweeping (.next 0), .attached⟩ ∧ t.jobs.length = 1 ∧ t.aperture = some 3 := by decide +kernel

theorem test_alloc : let t := said .alloc (le16 200 ++ [1, 0x0A]) { small with watermark := 504 }
    toldLoc .ok [6, 0] t ∧ t.freeSegs.length = 503 ∧ t.charge = ⟨2, 7⟩ ∧ t.latched = ⟨0x80, 0x80⟩ ∧
    (t.entry 6).custody = .held { rec3 with buf := { buf [7, 8] 0 with tag := 0x0A01 } } := by decide +kernel

theorem test_alloc_range : toldLoc .range [] (said .alloc (le16 4097) small) = true := by decide +kernel

theorem test_retire : let t := said .retire [3, 0] { small with watermark := 507 }
    toldLoc .ok [] t ∧ t.entry 3 = { gen := 1, custody := .free } ∧ t.freeRecs.getLast? = some 3 ∧ t.freeSegs.drop 505 = [3, 4] ∧
    t.charge = ⟨2, 3⟩ ∧ t.aperture = none ∧ t.latched = ⟨0x100, 0x100⟩ := by decide +kernel

theorem test_retire_pinned : toldLoc .recordBusy [] (said .retire [0, 0] small) = true := by decide +kernel

theorem test_settag : let t := said .settag [3, 0, 0xEF, 0xBE] small
    toldLoc .ok [] t ∧ (t.entry 3).custody = .held { rec3 with buf := { buf [3, 4] 130 with tag := 0xBEEF } } := by decide +kernel

theorem test_lookup_queued :
    toldLoc .ok [2, 0xFF, 1, 0, 0xFF, 0xFF, 8, 0, 128, 0, 7, 0, 0, 0, 0, 0] (said .lookup [5, 0] small) = true := by decide +kernel

theorem test_lookup_held :
    toldLoc .ok [1, 0, 0xFF, 0xFF, 1, 2, 3, 0, 128, 0, 7, 0, 0, 2, 5, 0] (said .lookup [4, 0] small) = true := by decide +kernel

theorem test_setlen : let t := said .setlen [3, 0, 100, 0] small
    toldLoc .ok [100, 0] t ∧ lengthOf t 3 = 100 := by decide +kernel

theorem test_write : let t := after (.write (hst [4, 0, 3, 0, 0xAA, 0xBB])) small
    toldHost .ok [5, 0] t ∧ lengthOf t 4 = 5 ∧ t.store = [(0, 0x11), (384, 0x22), (640, 0x33), (643, 0xAA), (644, 0xBB)] := by
  decide +kernel

theorem test_read : toldHost .ok [3, 0, 0x33, 0, 0, 0] (after (.read (hst [4, 0, 0, 0, 4, 0])) small) = true := by decide +kernel

theorem test_clone : let t := said .clone [3, 0] small
    toldLoc .ok [6, 0, 1] t ∧ t.jobs = [⟨0, 1, .loc⟩, ⟨3, 6, .loc⟩] ∧ pinsOf t 3 = 1 ∧
    (t.entry 6).custody = .held { rec3 with buf := { buf [7, 8] 130 with filling := true } } := by decide +kernel

theorem test_renew : let t := after (.renew (hst [4, 0])) small
    toldHost .ok [9, 0] t ∧ (t.entry 4).custody = .held { rec4 with lease := some { remaining := 9, due := false } } := by decide +kernel

theorem test_post : let t := after (.post (hst [4, 0, 2, 0xFF])) small
    toldHost .ok [0] t ∧ (t.entry 4).custody = .queued { chan := 2, buf := buf [5] 3 } ∧ t.charge = ⟨2, 5⟩ ∧
    t.chan 2 = { chan2 with queue := [4], outstanding := 1 } ∧ t.chan 1 = { chan1 with outstanding := 1, tally := 4 } := by
  decide +kernel

theorem test_post_no_credit : toldLoc .noCredit [] (said .post [3, 0, 1, 0xFF] small) = true := by decide +kernel

theorem test_return : let t := after (.ret (hst [4, 0])) small
    toldHost .ok [2, 0] t ∧ (t.chan 2).queue = [4] ∧ (t.entry 4).custody = .queued { chan := 2, buf := buf [5] 3 } := by decide +kernel

theorem test_claim : let t := said .claim [0] small
    toldLoc .ok [2, 0, 0, 0, 128, 0, 7, 0, 0, 0] t ∧ t.charge = ⟨1, 6⟩ ∧ t.chan 0 = { chan0 with queue := [] } ∧
    (t.entry 2).custody = .held { holder := .loc, origin := some 0, lease := some { remaining := 2, due := false }, buf := buf [2] 0 } := by
  decide +kernel

theorem test_claimtag : toldHost .ok [5, 0, 8, 0, 128, 0, 7, 0, 0, 1] (after (.claimtag (hst [1, 0, 7, 0])) small) ∧
    toldHost .empty [] (after (.claimtag (hst [1, 0, 8, 0])) small) := by decide +kernel

theorem test_claimany : let t := said .claimany [] { small with rr := ⟨3, 5⟩ }
    toldLoc .ok [2, 0, 0, 0, 128, 0, 7, 0, 0, 0] t ∧ t.rr = ⟨3, 1⟩ := by decide +kernel

theorem test_tally : let t := said .tally [1] small
    toldLoc .ok [3, 0] t ∧ t.chan 1 = { chan1 with tally := 0 } := by decide +kernel

theorem test_chaninfo : toldLoc .ok [1, 1, 2, 2, 9, 0, 0, 1, 1, 0, 3, 0] (said .chaninfo [1] small) = true := by decide +kernel

theorem test_chancfg : let t := said .chancfg [3, 0, 32, 3, 0xFF, 0x0F, 1] small
    toldLoc .ok [] t ∧ t.chan 3 = { Channel.reset with depth := 32, priority := 3, leaseTime := 4095, flush := true } := by
  decide +kernel

theorem test_chanon : toldLoc .ok [] (said .chanon [3] small) ∧ toldLoc .range [] (said .chanon [4] small) := by decide +kernel

theorem test_chanoff : toldLoc .ok [] (said .chanoff [2] small) ∧ toldLoc .channelBusy [] (said .chanoff [0] small) := by decide +kernel

theorem test_purge : let t := said .purge [0] small
    toldLoc .ok [1] t ∧ t.chan 0 = { chan0 with queue := [], outstanding := 1, tally := 1 } ∧ t.charge = ⟨1, 5⟩ ∧
    t.entry 2 = { gen := 1, custody := .free } := by decide +kernel

theorem test_poolinfo : toldLoc .ok [0xF9, 1, 122, 0, 2, 0, 5, 0, 0, 2, 0, 2, 0, 2] (said .poolinfo [] small) = true := by decide +kernel

theorem test_quota : let t := said .quota [0, 0, 1, 0] small
    toldLoc .ok [2, 0] t ∧ t.quota = ⟨1, 512⟩ := by decide +kernel

theorem test_watermark : let t := said .watermark [100, 0] small
    toldLoc .ok [0xF9, 1] t ∧ t.watermark = 100 ∧ t.latched = ⟨0, 0⟩ := by decide +kernel

theorem test_events : toldLoc .ok [0, 0, 3, 0, 0, 0, 0] (said .events [] small) = true := by decide +kernel

theorem test_ack : let t := said .ack [0x20, 0] { small with latched := ⟨0x20, 0x60⟩ }
    toldLoc .ok [0x40, 0] t ∧ t.latched = ⟨0x20, 0x40⟩ := by decide +kernel

theorem test_evmask : let t := said .evmask [2, 0] small
    toldLoc .ok [1] t ∧ t.enables = ⟨0, 2⟩ ∧ t.line .loc = true := by decide +kernel

theorem test_open : let t := said .openRec [0, 0] small
    toldLoc .ok [4, 0, 128, 0] t ∧ t.aperture = some 0 := by decide +kernel

theorem test_close : let t := said .closeAp [] small
    toldLoc .ok [] t ∧ t.aperture = none := by decide +kernel

theorem test_linkcfg : let t := after (.linkcfg (hst [1, crc8 [0x7E, 1]])) small
    toldHost .ok [1] t ∧ t.checkMode = true := by decide +kernel

theorem test_linkcfg_bad_check : toldHost .badCheck [] (after (.linkcfg (hst [1, 0])) small) = true := by decide +kernel

theorem test_fetch : let t := after (.fetch (List.replicate 24 true)) { small with slot := .ready [0, 0x12], overrun := true }
    t.shifted = some ([0x68, 0, 0x12, 0].flatMap byteBits) ∧ t.slot = .fetched [0, 0x12] ∧ t.overrun = false := by decide +kernel

theorem test_fetch_abandoned : after (.fetch []) { small with rx := .abandoned [true] } = { small with shifted := some [true] } := by decide +kernel

theorem test_discard : let t := after (.requestFrameDiscard (byteBits 0x02)) { small with slot := .ready [0] }
    t = { small with slot := .ready [0], overrun := true, shifted := some (byteBits 0x48) } := by decide +kernel

theorem test_arg_write : (after (.argWrite 1 0xAABBCCDD 0b0101) small).args = #v[0, 0x00BB00DD, 0, 0] := by decide +kernel

theorem test_bus_error : (after (.busError { write := true, word := 5, data := 1, be := 15 }) small) =
    { small with bus := some { lerr := true, data := none } } := by decide +kernel

/-- R200: WSTAT with both sides ATTACHED, the aperture bound to record 3. -/
theorem test_read_wstat : (after (.busError { write := false, word := 10, data := 0, be := 0 }) small).bus =
    some { lerr := false, data := some 0x00030015 } := by decide +kernel

theorem test_aperture_read : (after (.apertureRead 0 0) small).bus = some { lerr := false, data := some 0x22 } ∧
    (after (.apertureRead 64 15) small).latched = ⟨0, 0x200⟩ := by decide +kernel

/-- R148's table: length 130, capacity 256, the word at aperture offset 128. -/
theorem test_aperture_write : lengthOf (after (.apertureWrite 32 0x44332211 15) small) 3 = 132 ∧
    (after (.apertureWrite 33 0x44332211 15) small).store = small.store ∧
    (after (.apertureWrite 32 0x44332211 0b1001) small).latched = ⟨0, 0x200⟩ := by decide +kernel

theorem test_device_reset : after (.deviceReset ⟨.full, [], none⟩) small =
    { State.reset with store := small.store, nRESET := false, pending := small.pending } := by decide +kernel

/-- R193: a REQ write held at the fall of nRESET completes with LERR; R168: the frame in progress has carried its status byte. -/
theorem test_device_reset_midway : let t := after (.deviceReset ⟨.full, byteBits 0x10 ++ [true], some ⟨0x10, 0, 0⟩⟩) { small with rx := .collecting 0x48 }
    t.bus = some { lerr := true, data := none } ∧ t.req = 0 ∧ t.stat = 0 ∧ t.rx = .abandoned (byteBits 0x48 ++ [false]) := by decide +kernel

theorem test_host_link_reset : let t := after (.hostLinkReset ⟨.full, byteBits 0x7F ++ byteBits 0⟩) { small with checkMode := true, slot := .ready [0x12], rx := .collecting 0x4A }
    t.slot = .empty ∧ t.checkMode = false ∧ t.rx = .abandoned (byteBits 0x4A ++ byteBits 0x12) ∧ t.session.host = .sweeping (.next 0) ∧ t.nHRST = false := by decide +kernel

theorem test_lease_tick : let t := after .leaseTick { small with ticksDue := 1 }
    t.ticksDue = 0 ∧ t.entry 0 = small.entry 0 ∧
    (t.entry 4).custody = .held { rec4 with lease := some { remaining := 4, due := false } } := by decide +kernel

theorem test_lease_expiry : let t := after (.leaseExpiry 0) small
    t.entry 0 = { gen := 1, custody := .queued { chan := 0, buf := buf [0] 4 } } ∧ t.chan 0 = { chan0 with queue := [0, 2] } ∧
    t.entry 1 = { gen := 1, custody := .free } ∧ t.jobs = [] ∧ t.latched = ⟨0, 0x14⟩ ∧ t.charge = ⟨3, 3⟩ := by decide +kernel

theorem test_copy_step : let t := after .copyStep small
    t.progress = 1 ∧ t.store = [(0, 0x11), (128, 0x11), (384, 0x22), (640, 0x33)] := by decide +kernel

theorem test_copy_completion : let t := after .copyCompletion { small with progress := 1 }
    t.jobs = [] ∧ t.progress = 0 ∧ pinsOf t 0 = 0 ∧ fillingOf t 1 = false ∧ t.latched = ⟨0, 8⟩ := by decide +kernel

/-- The small state while LOCAL sweeps, its jobs gone. -/
def sweepingAt (p : SweepPos) : State :=
  { small with session := ⟨.attached, .sweeping p⟩, jobs := [], aperture := none }

theorem test_sweep_step : let t := after (.sweepStep .loc) (sweepingAt (.next 3))
    t.session.loc = .sweeping (.next 4) ∧ t.entry 3 = { gen := 1, custody := .free } ∧
    (after (.sweepStep .loc) (sweepingAt (.next 127))).session.loc = .sweeping .done := by decide +kernel

theorem test_sweep_completion : let t := after (.sweepCompletion .loc) (sweepingAt .done)
    t.session.loc = .detached ∧ t.latched = ⟨0x40, 0⟩ ∧ t.entry 2 = { gen := 1, custody := .free } ∧ (t.chan 0).queue = [] ∧
    (t.chan 1).queue = [5] := by decide +kernel

theorem test_tclk_cycle : let t := after .tclkCycle { small with prescaler := 1023 }
    t.prescaler = 0 ∧ t.ticksDue = 1 := by decide +kernel

theorem test_lines_rise : (after .nresetRises { State.reset with nRESET := false }) = State.reset ∧
    (after .nhrstReturningHigh { State.reset with nHRST := false }) = State.reset := by decide +kernel

theorem test_frame_begins : (after .frameBegins small).rx = .collecting 0x08 ∧
    (after .frameBegins { small with nHRST := false }).rx = .ignoring := by decide +kernel

theorem test_unknown_code : lane (after (.unknownRequestCode 0x55 loc) small).stat 0 = 1 ∧
    lane (after (.unknownRequestCode 0x55 loc) small).stat 1 = 0x55 := by decide +kernel

/-! ## Witnesses: for every statement with hypotheses, states and operands that meet them -/

/-- A LOCAL request with these argument bytes reaches its checks past step 2. -/
abbrev Reaches (r : Req) (bytes : List Byte) (s : State) : Prop :=
  Presents loc r (ask bytes s) (argBytes (ask bytes s)) ∧ Admitted r .loc (ask bytes s)

/-- A HOST request with these argument bytes reaches its checks past step 2. -/
abbrev ReachesHost (r : Req) (bytes : List Byte) (s : State) : Prop := Presents (hst bytes) r s bytes ∧ Admitted r .host s

/-- The named record is held, by `x`. -/
abbrev Names (h : Half) (i : RecIdx) (r : Held) (x : Side) (s : State) : Prop := HeldAt h i r s ∧ r.holder = x

/-- The small state with check mode on. -/
def checked : State := { small with checkMode := true, slot := .fetched [0] }

/-- The small state with an answer waiting. -/
def ready : State := { small with slot := .ready [0] }

theorem wit_StepRunsTheFrontCommand : small.pending = .leaseExpiry 0 :: [] ∧ State.reset.pending = [] := ⟨rfl, rfl⟩

theorem wit_StepKeepsTheInvariant : Inv quiet ∧ ∃ t, step quiet = .next t := ⟨quiet_inv, _, rfl⟩

theorem wit_StepKeepsTheStoreCanonical : StoreInv small ∧ ∃ t, step small = .next t := ⟨small_store, _, rfl⟩

theorem wit_StepKeepsThePortAndTheEventSets : PortInv small ∧ ReceiverInv small ∧ EventsInv small ∧ ∃ t, step small = .next t :=
  ⟨small_port, fun h => (by rcases h with h | h <;> cases h), small_events, _, rfl⟩

theorem wit_HostFrameReachesItsRequest : FrameTaken checked ∧ (∀ a, checked.slot ≠ .ready a) ∧ reqOpenTo .host .write = true ∧
    reqArgLen .write ≤ (List.replicate 260 (0 : Byte)).length ∧ (List.replicate 260 (0 : Byte)).length ≤ 260 ∧
    (List.replicate 7 true).length < 8 ∧ checked.checkMode = true ∧ FrameTaken small ∧ small.checkMode = false :=
  ⟨by decide +kernel, fun _ h => (by cases h), by decide, by decide +kernel, by decide +kernel, by decide, rfl, by decide +kernel, rfl⟩

theorem wit_LocalWriteReachesItsRequest : small.nRESET = true := rfl

theorem wit_PortAnswersItsOwnChecks :
    (FrameTaken checked ∧ checked.checkMode = true ∧ wholeBytes (List.replicate 7 true) = [] ∧
      wholeBytes (byteBits 0) = [0] ∧ crc8 [reqCode .alloc] ≠ 0 ∧ crc8 [0x55] ≠ 0 ∧ crc8 [reqCode .evict] = 0x09 ∧ crc8 [0x55] = 0xAC) ∧
    (FrameTaken small ∧ small.checkMode = false ∧ reqOpenTo .host .alloc = true ∧ ([0, 0, 0] : List Byte).length < reqArgLen .alloc ∧
      260 < (List.replicate 261 (0 : Byte)).length ∧ reqOpenTo .host .evict = false ∧ unknownCode 0x55 (.host []) = true) ∧
    (∀ a, checked.slot ≠ .ready a) ∧ ∀ a, small.slot ≠ .ready a :=
  ⟨by decide +kernel, by decide +kernel, fun _ h => (by cases h), fun _ h => (by cases h)⟩

theorem wit_ReadySlotDiscardsFrames : rxNow ready = .collecting 0x48 ∧ ready.slot = .ready [0] ∧ unknownCode 0x55 (.host []) = true ∧
    notFetchFrame (byteBits 0x10) = true ∧ 8 ≤ (byteBits 0x10).length := by decide +kernel

theorem wit_UntakenFramesChangeNothing : ¬FrameTaken { small with nHRST := false } ∧ ¬FrameTaken { small with rx := .ignoring } ∧
    rxNow { small with rx := .ignoring } = .ignoring ∧ rxNow { small with rx := .abandoned [true] } = .abandoned [true] ∧
    rxNow small = .collecting 0x08 ∧ (List.replicate 7 true).length < 8 := by decide +kernel

theorem wit_FetchShiftsTheAnswer : rxNow ready = .collecting 0x48 ∧ ready.slot = .ready [0] ∧ rxNow checked = .collecting 0x8A ∧
    checked.slot = .fetched [0] ∧ PortInv small ∧ rxNow small = .collecting 0x08 ∧ small.slot = .empty :=
  ⟨by decide +kernel, rfl, by decide +kernel, rfl, small_port, by decide +kernel, rfl⟩

theorem wit_FrameBeginsTakesTheStatus : ({ small with rx := .ignoring } : State).rx ≠ .idle ∧ small.rx = .idle ∧ small.nRESET = true ∧ small.nHRST = true ∧ small.slot = .empty ∧
    ready.slot = .ready [0] ∧ checked.slot = .fetched [0] ∧ small.session.host = .attached ∧ State.reset.session.host = .detached ∧
    ({ small with session := ⟨.sweeping .done, .attached⟩, nHRST := false } : State).session.host = .sweeping .done := by decide +kernel

theorem wit_RefusedRequestChangesOnlyItsPort :
    (Presents (hst [0, 0, 0, 0]) .alloc small [0, 0, 0, 0] ∧
      handlerOf .alloc .host [0, 0, 0, 0] (entered (hst [0, 0, 0, 0]) (reqCode .alloc) small) = .refuse .range) ∧
    (Presents loc .retire (ask [0, 0] small) (argBytes (ask [0, 0] small)) ∧
      handlerOf .retire .loc (argBytes (ask [0, 0] small)) (entered loc (reqCode .retire) (ask [0, 0] small)) = .refuse .recordBusy) := by
  decide +kernel

theorem wit_UnpermittedCodesAreBadRequest : Presents (hst []) .evict small [] ∧ Presents loc .read small (argBytes small) ∧
    present (hst [0]) 0x55 small = .carried [0] ∧ unknownCode 0x55 (hst [0]) = true ∧ present loc 0x7F small = .carried (argBytes small) ∧
    unknownCode 0x7F loc = true := by decide +kernel

theorem wit_SessionCheckAnswers : Presents loc .alloc State.reset (argBytes State.reset) ∧ reqOpenTo .loc .alloc = true ∧
    State.reset.session.get .loc ≠ .attached ∧ Presents loc .attach (sweepingAt .done) (argBytes (sweepingAt .done)) ∧
    (sweepingAt .done).session.get .loc = .sweeping .done ∧ reqOpenTo .host .linkcfg = true ∧ reqOpenTo .loc .attach = true ∧
    State.reset.session.get .loc = .detached ∧ small.session.get .loc = .attached := by decide +kernel

theorem wit_ArgumentsOutOfRangeAreRange :
    (ReachesHost .alloc (le16 4097 ++ [0, 0]) small ∧ ¬ArgsInRange .alloc (le16 4097 ++ [0, 0])) ∧
    (ReachesHost .write [4, 0, 0, 0] small ∧ ¬ArgsInRange .write [4, 0, 0, 0]) ∧
    (ReachesHost .read [4, 0, 0, 0, 1, 1] small ∧ ¬ArgsInRange .read [4, 0, 0, 0, 1, 1]) ∧
    (ReachesHost .post [4, 0, 11, 12] small ∧ ¬ArgsInRange .post [4, 0, 11, 12] ∧ ArgsInRange .post [4, 0, 11, 0xFF]) ∧
    (ReachesHost .claim [12] small ∧ ¬ArgsInRange .claim [12]) ∧
    (ReachesHost .ack (le16 1024) small ∧ ¬ArgsInRange .ack (le16 1024)) ∧
    (Reaches .chancfg [0, 0, 33] small ∧ ¬ArgsInRange .chancfg (argBytes (ask [0, 0, 33] small))) ∧
    (Presents (hst [2, crc8 [0x7E, 2]]) .linkcfg small [2] ∧ reqOpenTo .host .linkcfg = true ∧ ¬ArgsInRange .linkcfg [2]) := by
  decide +kernel

theorem wit_HandleAndHolderChecks :
    (Reaches .setlen [0x83, 0] small ∧ ArgsInRange .setlen (argBytes (ask [0x83, 0] small)) ∧ handleGen 0x0083 = 1 ∧
      handleIdx 0x0083 = 3 ∧ (small.entry 3).gen = 0) ∧
    (Reaches .retire [6, 0] small ∧ handleIdx 6 = 6 ∧ handleGen 6 = 0 ∧ small.entry 6 = { gen := 0, custody := .free }) ∧
    (Reaches .lookup [2, 0] small ∧ small.entry 2 = { gen := 0, custody := .queued rec2 }) ∧
    (ReachesHost .write [3, 0, 0, 0, 1] small ∧ ArgsInRange .write [3, 0, 0, 0, 1] ∧ HeldAt 3 3 rec3 small ∧ rec3.holder ≠ .host) := by
  decide +kernel

theorem wit_BusyRecordsAndBoundsAreRefused :
    (Reaches .setlen [0, 0, 0, 0x10] small ∧ ArgsInRange .setlen (argBytes (ask [0, 0, 0, 0x10] small)) ∧ Names 0 0 rec0 .loc small ∧
      rec0.buf.pins ≠ 0) ∧
    (Reaches .post [1, 0, 1, 0xFF] small ∧ Names 1 1 rec1 .loc small ∧ rec1.buf.filling = true) ∧
    (Reaches .setlen [3, 0, 131, 0] small ∧ Names 3 3 rec3 .loc small ∧ rec3.buf.length < 131) ∧
    (ReachesHost .write [4, 0, 4, 0, 1] small ∧ Names 4 4 rec4 .host small ∧ rec4.buf.length < 4) ∧
    (ReachesHost .read [4, 0, 128, 0, 1, 0] small ∧ ArgsInRange .read [4, 0, 128, 0, 1, 0] ∧ rec4.buf.capacity < 128 + 1) ∧
    (ReachesHost .read [1, 0, 0, 0, 1, 0] (small.setEntry 1 { gen := 0, custody := .held { rec1 with holder := .host } }) ∧
      Names 1 1 { rec1 with holder := .host } .host (small.setEntry 1 { gen := 0, custody := .held { rec1 with holder := .host } })) := by
  decide +kernel

/-- The argument bytes LOCAL's request carries. -/
abbrev bytesOf (bytes : List Byte) : List Byte := argBytes (ask bytes small)

theorem wit_AllocChecksInOrder : (Reaches .alloc [0, 0x10] small ∧ arg16 (bytesOf [0, 0x10]) 0 = 4096) ∧
    (Reaches .alloc [1, 0x10] small ∧ arg16 (bytesOf [1, 0x10]) 0 = 4097) ∧
    (({ small with quota := ⟨512, 5⟩ } : State).quota.loc < small.charge.loc + 1) ∧
    ({ small with freeRecs := [] } : State).freeRecs = [] ∧ ({ small with freeSegs := [] } : State).freeSegs.length < 1 := by
  decide +kernel

theorem wit_AllocTakesFromTheHeads : Reaches .alloc [0, 0x10] small ∧ 1 ≤ arg16 (bytesOf [0, 0x10]) 0 ∧ arg16 (bytesOf [0, 0x10]) 0 ≤ 4096 ∧
    small.charge.loc + 32 ≤ small.quota.loc ∧ small.freeRecs = 6 :: small.freeRecs.tail ∧ 32 ≤ small.freeSegs.length := by decide +kernel

theorem wit_RetireRunsTheRetirementPath : Reaches .retire [3, 0] small ∧ Names (argHalf (bytesOf [3, 0]) 0) 3 rec3 .loc small ∧ rec3.buf.pins = 0 ∧
    Reaches .retire [0, 0] small ∧ Names (argHalf (bytesOf [0, 0]) 0) 0 rec0 .loc small ∧ rec0.buf.pins ≠ 0 := by decide +kernel

theorem wit_SettagAndSetlenReplaceOneField : Reaches .settag [0, 0, 1, 2] small ∧ Names (argHalf (bytesOf [0, 0, 1, 2]) 0) 0 rec0 .loc small ∧
    Reaches .setlen [3, 0, 130, 0] small ∧ Names (argHalf (bytesOf [3, 0, 130, 0]) 0) 3 rec3 .loc small ∧ rec3.buf.pins = 0 ∧
    rec3.buf.filling = false ∧ arg16 (bytesOf [3, 0, 130, 0]) 2 = rec3.buf.length := by decide +kernel

theorem wit_LookupReportsAndChangesNothing : Reaches .lookup [4, 0] small ∧ (small.entry 4).custody = .held rec4 ∧ Reaches .lookup [5, 0] small ∧
    (small.entry 5).custody = .queued rec5 ∧ handleIdx (argHalf (bytesOf [5, 0]) 0) = 5 ∧ handleGen (argHalf (bytesOf [5, 0]) 0) = (small.entry 5).gen := by
  decide +kernel

theorem wit_ReportsChangeNothing : Reaches .poolinfo [] small ∧ Reaches .chaninfo [11] small ∧ arg8 (bytesOf [11]) 0 = BitVec.ofNat 8 11 ∧
    Reaches .events [] small := by decide +kernel

theorem wit_QuotaAndWatermarkSet : Reaches .quota [1, 0, 0, 2] small ∧ arg16 (bytesOf [1, 0, 0, 2]) 2 = 512 ∧ Reaches .quota [2] small ∧
    Reaches .watermark [0, 2] small ∧ arg16 (bytesOf [0, 2]) 0 = 512 ∧ Reaches .watermark [1, 2] small ∧ 512 < arg16 (bytesOf [1, 2]) 0 := by
  decide +kernel

theorem wit_WriteStoresItsBytes : ReachesHost .write [4, 0, 3, 0, 1] small ∧ Names 4 4 rec4 .host small ∧ argHalf [4, 0, 3, 0, 1] 0 = 4 ∧
    rec4.buf.pins = 0 ∧ rec4.buf.filling = false ∧ Memory.wf small.store ∧ rec4.buf.segs.Nodup ∧ arg16 [4, 0, 3, 0, 1] 2 = rec4.buf.length ∧
    3 + 1 ≤ rec4.buf.capacity := by decide +kernel

theorem wit_ReadReturnsTheBytes : ReachesHost .read [4, 0, 127, 0, 1, 0] small ∧ Names 4 4 rec4 .host small ∧ rec4.buf.filling = false ∧
    arg16 [4, 0, 127, 0, 1, 0] 4 = 1 ∧ 127 + 1 = rec4.buf.capacity := by decide +kernel

theorem wit_OpenBindsTheAperture : Reaches .openRec [0, 0] small ∧ Names (argHalf (bytesOf [0, 0]) 0) 0 rec0 .loc small ∧ rec0.buf.filling = false ∧
    Reaches .openRec [1, 0] small ∧ Names (argHalf (bytesOf [1, 0]) 0) 1 rec1 .loc small ∧ rec1.buf.filling = true := by decide +kernel

theorem wit_CloseUnbindsTheAperture : (Presents (hst []) .closeAp small [] ∧ ApertureInv small) ∧
    (Presents loc .closeAp State.reset (argBytes State.reset) ∧ ApertureInv State.reset ∧ State.reset.session.loc ≠ .attached) ∧
    (Presents loc .closeAp small (argBytes small) ∧ small.session.loc = .attached) :=
  ⟨⟨by decide +kernel, small_aperture⟩, ⟨by decide +kernel, fun _ h => (by cases h), by decide⟩, by decide +kernel⟩

theorem wit_ApertureReadReturnsTheWord : small.nRESET = true ∧ small.aperture = some 3 ∧ (small.entry 3).custody.buf? = some (buf [3, 4] 130) ∧
    4 * (63 : BitVec 10).toNat < (buf [3, 4] 130).capacity ∧ (buf [3, 4] 130).capacity ≤ 4 * (64 : BitVec 10).toNat ∧
    State.reset.aperture = none ∧ ({ small with nRESET := false } : State).nRESET = false := by decide +kernel

theorem wit_ApertureWriteStoresOrIsDropped :
    (small.nRESET = true ∧ (small.entry 3).custody = .held rec3 ∧ Memory.wf small.store ∧ rec3.buf.segs.Nodup) ∧
    ApertureAccepts 32 small 3 rec3.buf 2 3 12 ∧ (¬∃ i b lo hi, ApertureAccepts 32 State.reset i b lo hi 12) ∧
    ({ small with nRESET := false } : State).nRESET = false := by
  refine ⟨by decide +kernel, ⟨by decide, by decide +kernel, by decide, ⟨by decide, by decide, by decide⟩, by decide, by decide⟩, ?_, by decide⟩
  rintro ⟨i, b, lo, hi, h, -⟩
  cases h

theorem wit_CloneChecksInOrder : (Reaches .clone [1, 0] small ∧ Names (argHalf (bytesOf [1, 0]) 0) 1 rec1 .loc small ∧ rec1.buf.filling = true) ∧
    (Reaches .clone [3, 0] small ∧ Names (argHalf (bytesOf [3, 0]) 0) 3 rec3 .loc small ∧ rec3.buf.filling = false) ∧
    4 ≤ ({ small with jobs := List.replicate 4 ⟨0, 1, .loc⟩ } : State).jobs.length ∧
    ({ small with quota := ⟨512, 6⟩ } : State).quota.loc < small.charge.loc + 2 ∧ ({ small with freeRecs := [] } : State).freeRecs = [] ∧
    ({ small with freeSegs := [7] } : State).freeSegs.length < 2 := by decide +kernel

theorem wit_CloneMakesAJob : Reaches .clone [3, 0] small ∧ Names (argHalf (bytesOf [3, 0]) 0) 3 rec3 .loc small ∧ rec3.buf.filling = false ∧
    FreeRecordsInv small ∧ small.jobs.length < 4 ∧ small.charge.loc + 2 ≤ small.quota.loc ∧ small.freeRecs = 6 :: small.freeRecs.tail ∧
    2 ≤ small.freeSegs.length :=
  ⟨by decide +kernel, by decide +kernel, rfl, small_freeRecords, by decide, by decide, by decide +kernel, by decide +kernel⟩

theorem wit_CopyStepCopiesOneSegment : small.jobs = ⟨0, 1, .loc⟩ :: [] ∧ (small.entry 0).custody.buf? = some rec0.buf ∧
    (small.entry 1).custody.buf? = some rec1.buf ∧ Memory.wf small.store ∧ rec1.buf.segs.Nodup ∧ 128 * small.progress < rec0.buf.length ∧
    State.reset.jobs = [] ∧ rec0.buf.length ≤ 128 * ({ small with progress := 1 } : State).progress := by decide +kernel

theorem wit_CopyCompletionEndsTheJob : ({ small with progress := 1 } : State).jobs = ⟨0, 1, .loc⟩ :: [] ∧
    (small.entry 0).custody.buf? = some rec0.buf ∧ rec0.buf.length ≤ 128 * 1 ∧ State.reset.jobs = [] ∧
    small.jobs = ⟨0, 1, .loc⟩ :: [] ∧ 128 * small.progress < rec0.buf.length := by decide +kernel

theorem wit_RenewRestartsTheLease : ReachesHost .renew [4, 0] small ∧ Names 4 4 rec4 .host small ∧ rec4.origin = some 1 ∧
    rec4.lease = some { remaining := 5, due := false } ∧ Reaches .renew [3, 0] small ∧ Names (argHalf (bytesOf [3, 0]) 0) 3 rec3 .loc small ∧
    rec3.lease = none := by decide +kernel

theorem wit_TicksCountTheLeasesDown : small.nRESET = true ∧ small.prescaler ≠ 1023 ∧ ({ small with prescaler := 1023 } : State).prescaler = 1023 ∧
    ({ small with nRESET := false } : State).nRESET = false ∧ (small.entry 4).custody = .held rec4 ∧
    rec4.lease = some { remaining := 5, due := false } ∧ (small.entry 3).custody = .held rec3 ∧ rec3.lease = none ∧
    ((setHeld 4 { rec4 with lease := some { remaining := 1, due := false } } small).entry 4).custody =
      .held { rec4 with lease := some { remaining := 1, due := false } } ∧
    ((small.entry 0).custody = .held rec0 ∧ rec0.lease = some { remaining := 1, due := true }) ∧ quiet.nRESET = true ∧
    ((quiet.entry 6).custody = .held rec6 ∧ rec6.lease = some { remaining := 2, due := true }) ∧
    ((setHeld 6 { rec6 with lease := some { remaining := 3, due := true } } quiet).entry 6).custody =
      .held { rec6 with lease := some { remaining := 3, due := true } } := by decide +kernel

theorem wit_LeaseExpiryOfNothingDue : (small.entry 127).custody = .free ∧ (small.entry 3).custody = .held rec3 ∧ rec3.lease = none ∧
    (small.entry 4).custody = .held rec4 ∧ rec4.lease = some { remaining := 5, due := false } := by decide +kernel

theorem wit_LeaseExpiryRequeuesTheRecord : Inv quiet ∧ ((quiet.entry 0).custody = .held rec0 ∧ rec0.origin = some 0 ∧
    rec0.lease = some { remaining := 1, due := true }) ∧ ((quiet.entry 6).custody = .held rec6 ∧ rec6.origin = some 0 ∧
    rec6.lease = some { remaining := 2, due := true }) := ⟨quiet_inv, ⟨by decide +kernel, rfl, rfl⟩, by decide +kernel, rfl, rfl⟩

/-- The small state with LOCAL gone. -/
def alone : State := { small with session := ⟨.attached, .detached⟩ }

theorem wit_ChannelChecksInOrder :
    (ReachesHost .post [4, 0, 1, 0xFF] small ∧ Names 4 4 rec4 .host small ∧ rec4.buf.pins = 0 ∧ rec4.buf.filling = false ∧
      (small.chan 1).source ≠ .host) ∧
    (ReachesHost .post [4, 0, 2, 2] small ∧ (small.chan 2).enabled = true ∧ (small.chan 2).source = .host ∧
      (small.chan 2).source ≠ peer (small.chan 2).source) ∧
    (ReachesHost .post [4, 0, 0, 0xFF] alone ∧ (alone.chan 0).flush = true ∧ alone.session.get (peer (alone.chan 0).source) ≠ .attached) ∧
    (Reaches .post [3, 0, 1, 0xFF] small ∧ Names (argHalf (bytesOf [3, 0, 1, 0xFF]) 0) 3 rec3 .loc small ∧ (small.chan 1).source = .loc ∧
      (small.chan 1).depth ≤ (small.chan 1).outstanding) ∧
    (ReachesHost .ret [4, 0] small ∧ rec4.buf.reply = some 2) ∧
    (ReachesHost .claim [0] small ∧ (small.chan 0).source = .host) ∧ (Reaches .claimtag [3] small ∧ (small.chan 3).enabled = false) := by
  decide +kernel

theorem wit_PostPlacesTheRecord : ReachesHost .post [4, 0, 0, 1] small ∧ RecordsInv small ∧ Names 4 4 rec4 .host small ∧ rec4.buf.pins = 0 ∧
    rec4.buf.filling = false ∧ arg8 [4, 0, 0, 1] 2 = BitVec.ofNat 8 0 ∧ arg8 [4, 0, 0, 1] 3 = BitVec.ofNat 8 1 ∧
    ((small.chan 0).enabled = true ∧ (small.chan 0).source = .host) ∧ ((small.chan 1).enabled = true ∧ (small.chan 1).source = peer .host) ∧
    small.session.get (peer (small.chan 0).source) = .attached ∧ (small.chan 0).outstanding < (small.chan 0).depth :=
  ⟨by decide +kernel, small_records, by decide +kernel, rfl, rfl, by decide, by decide, by decide +kernel, by decide +kernel,
    by decide +kernel, by decide +kernel⟩

theorem wit_ReturnPlacesTheRecord : ReachesHost .ret [4, 0] small ∧ RecordsInv small ∧ Names 4 4 rec4 .host small ∧ rec4.buf.pins = 0 ∧
    rec4.buf.filling = false ∧ rec4.buf.reply = some 2 ∧ ((small.chan 2).enabled = true ∧ (small.chan 2).source = .host) ∧
    (small.chan 2).outstanding + 1 = (small.chan 2).depth ∧ Reaches .ret [3, 0] small ∧
    Names (argHalf (bytesOf [3, 0]) 0) 3 rec3 .loc small ∧ rec3.buf.reply = none :=
  ⟨by decide +kernel, small_records, by decide +kernel, rfl, rfl, rfl, by decide +kernel, by decide +kernel, by decide +kernel,
    by decide +kernel, rfl⟩

theorem wit_ClaimTakesTheRecord : (Reaches .claim [0] small ∧ (small.chan 0).enabled = true ∧ peer (small.chan 0).source = .loc ∧
      (small.chan 0).queue = 2 :: [] ∧ (small.entry 2).custody = .queued rec2) ∧
    (ReachesHost .claimtag [1, 0, 7, 0] small ∧ (small.chan 1).enabled = true ∧ peer (small.chan 1).source = .host ∧
      (small.chan 1).queue = [] ++ 5 :: [] ∧ (small.entry 5).custody = .queued rec5 ∧ rec5.buf.tag = argHalf [1, 0, 7, 0] 2) ∧
    (Reaches .claim [2] small ∧ (small.chan 2).enabled = true ∧ peer (small.chan 2).source = .loc ∧ (small.chan 2).queue = []) ∧
    (ReachesHost .claimtag [1, 0, 8, 0] small ∧ rec5.buf.tag ≠ argHalf [1, 0, 8, 0] 2) := by decide +kernel

theorem wit_ClaimanyChoosesByPriorityThenRotation : Reaches .claimany [] small ∧
    (∀ d : ChanNo, ((small.chan d).enabled = true ∧ peer (small.chan d).source = .loc ∧ (small.chan d).queue ≠ []) ↔ d = 0) ∧
    (small.chan 0).queue = 2 :: [] ∧ (small.entry 2).custody = .queued rec2 ∧ (small.entry 5).custody = .queued rec5 ∧
    Reaches .claimany [] { small with chans := State.reset.chans } ∧ ∀ d : ChanNo, (State.reset.chan d).enabled = false := by
  decide +kernel

theorem wit_TallyReadsAndClears : (Reaches .tally [1] small ∧ arg8 (bytesOf [1]) 0 = BitVec.ofNat 8 1 ∧ (small.chan 1).source = .loc) ∧
    (ReachesHost .tally [1] small ∧ (small.chan 1).source ≠ .host) := by decide +kernel

/-- CHANCFG of channel 3 with every field at its greatest. -/
def widest : List Byte := [3, 0, 32, 3, 0xFF, 0x0F, 1]

theorem wit_ChannelsAreConfigured :
    (Reaches .chancfg widest small ∧ arg8 (bytesOf widest) 0 = BitVec.ofNat 8 3 ∧ arg8 (bytesOf widest) 1 = 0 ∧
      (arg8 (bytesOf widest) 2).toNat = 32 ∧ (arg8 (bytesOf widest) 3).toNat = 3 ∧ arg16 (bytesOf widest) 4 = 4095 ∧
      arg8 (bytesOf widest) 6 = 1 ∧ (small.chan 3).enabled = false) ∧
    (Reaches .chancfg [0, 0, 1] small ∧ (small.chan 0).enabled = true) ∧ (Reaches .chanon [3] small ∧ (small.chan 3).depth ≠ 0) ∧
    (Reaches .chanon [11] small ∧ (small.chan 11).enabled = false ∧ (small.chan 11).depth = 0) ∧
    (Reaches .chanoff [2] small ∧ (small.chan 2).outstanding = 0) ∧ (Reaches .chanoff [0] small ∧ 0 < (small.chan 0).outstanding) := by
  decide +kernel

theorem wit_PurgeRetiresTheQueue : Presents loc .purge quiet (argBytes quiet) ∧ Admitted .purge .loc quiet ∧ Inv quiet ∧
    arg8 (argBytes quiet) 0 = BitVec.ofNat 8 0 := ⟨by decide +kernel, by decide +kernel, quiet_inv, by decide +kernel⟩

theorem wit_SweepCompletionDetachesTheSide : Inv quiet ∧ quiet.session.get .host = .sweeping .done ∧
    small.session.get .host ≠ .sweeping .done := ⟨quiet_inv, rfl, by decide⟩

theorem wit_AckAndEvmaskActOnOneSet : (Reaches .ack [0xFF, 3] small ∧ (argHalf (bytesOf [0xFF, 3]) 0).extractLsb' 10 6 = 0) ∧
    (Reaches .evmask [0, 4] small ∧ (argHalf (bytesOf [0, 4]) 0).extractLsb' 10 6 ≠ 0) := by decide +kernel

theorem wit_AttachBeginsTheSession : Presents loc .attach State.reset (argBytes State.reset) ∧ State.reset.session.get .loc = .detached ∧
    Presents loc .attach small (argBytes small) ∧ small.session.get .loc = .attached := by decide +kernel

theorem wit_LeavingStartsTheSweep : Reaches .detach [] small ∧ ReachesHost .detach [] small ∧ Reaches .evict [] small ∧
    small.session.host = .attached ∧ ({ small with session := ⟨.detached, .attached⟩ } : State).session.host ≠ .attached := by decide +kernel

theorem wit_SweepStepRetiresWhatTheSideHolds : (sweepingAt (.next 3)).session.get .loc = .sweeping (.next 3) ∧
    ((sweepingAt (.next 3)).entry 3).custody = .held rec3 ∧ rec3.holder = .loc ∧
    (sweepingAt (.next 127)).session.get .loc = .sweeping (.next 127) ∧ ((sweepingAt (.next 127)).entry 127).custody = .free ∧
    small.session.get .loc = .attached := by decide +kernel

theorem wit_LinkcfgSetsCheckMode : Presents (hst [1, crc8 [0x7E, 1]]) .linkcfg small [1] ∧ (hst [1, crc8 [0x7E, 1]]).side = .host ∧
    arg8 [1] 0 = 1 ∧ Presents (hst [2, crc8 [0x7E, 2]]) .linkcfg small [2] ∧ arg8 [2] 0 ≠ 0 ∧ arg8 [2] 0 ≠ 1 := by decide +kernel

theorem wit_BusErrorsChangeNothing : (BusAccess.isError { write := false, word := 11, data := 0, be := 0 } = true) ∧
    (({ small with nRESET := false } : State).nRESET = false ∧ (4 : BitVec 11).getLsbD 10 = false) ∧
    (BusAccess.isError { write := true, word := 4, data := 0x10, be := 1 } = false ∧ small.nRESET = true) := by decide +kernel

theorem wit_ResetLinesActAsGiven : abandonedRx (byteBits 0x10) { small with rx := .collecting 0x08 } = .abandoned (byteBits 0x08) ∧ small.nRESET = true ∧ small.nHRST = true ∧ small.session.host = .attached ∧
    State.reset.session.host ≠ .attached ∧ ({ small with nRESET := false, nHRST := false } : State).nRESET = false := by decide +kernel

theorem wit_RegistersHoldWhatIsWritten : small.nRESET = true ∧ small.aperture = some 3 ∧ State.reset.aperture = none := by decide

theorem wit_ShortPulseIsTakenOrNot : heldCommand ⟨0x10, 0, 0⟩ = .alloc loc ∧ heldCommand ⟨0x7F, 0, 0⟩ = .unknownRequestCode 0x7F loc ∧
    ({ small with nRESET := false, nHRST := false } : State).nHRST = false ∧ small.nRESET = true ∧ small.nHRST = true ∧ small.session.host = .attached ∧
    State.reset.session.host ≠ .attached := by decide

end Sys2Proof.Tests
end

section
/-! Views of a record, and the accounting invariants as sums over the 128 records. -/

namespace Sys2Proof.Machine

/-! ## What each state of a record shows -/

section
variable {s : State} {i : RecIdx}

theorem segsOf_free (h : (s.entry i).custody = .free) : segsOf s i = [] := by simp [segsOf, h, Custody.buf?]
theorem pinsOf_free (h : (s.entry i).custody = .free) : pinsOf s i = 0 := by simp [pinsOf, h, Custody.buf?]
theorem fillingOf_free (h : (s.entry i).custody = .free) : fillingOf s i = false := by simp [fillingOf, h, Custody.buf?]
theorem heldBy_free (h : (s.entry i).custody = .free) (x : Side) : heldBy s x i = false := by simp [heldBy, h]

variable {k : Held}
theorem segsOf_held (h : (s.entry i).custody = .held k) : segsOf s i = k.buf.segs := by simp [segsOf, h, Custody.buf?]
theorem pinsOf_held (h : (s.entry i).custody = .held k) : pinsOf s i = k.buf.pins := by simp [pinsOf, h, Custody.buf?]
theorem fillingOf_held (h : (s.entry i).custody = .held k) : fillingOf s i = k.buf.filling := by simp [fillingOf, h, Custody.buf?]
theorem lengthOf_held (h : (s.entry i).custody = .held k) : lengthOf s i = k.buf.length := by simp [lengthOf, h, Custody.buf?]
theorem heldBy_held (h : (s.entry i).custody = .held k) (x : Side) : heldBy s x i = true ↔ k.holder = x := by simp [heldBy, h]
theorem chargedSide_held (h : (s.entry i).custody = .held k) : chargedSide s i = some k.holder := by simp [chargedSide, h]

variable {q : Queued}
theorem segsOf_queued (h : (s.entry i).custody = .queued q) : segsOf s i = q.buf.segs := by simp [segsOf, h, Custody.buf?]
theorem pinsOf_queued (h : (s.entry i).custody = .queued q) : pinsOf s i = q.buf.pins := by simp [pinsOf, h, Custody.buf?]
theorem fillingOf_queued (h : (s.entry i).custody = .queued q) : fillingOf s i = q.buf.filling := by simp [fillingOf, h, Custody.buf?]
theorem heldBy_queued (h : (s.entry i).custody = .queued q) (x : Side) : heldBy s x i = false := by simp [heldBy, h]
theorem chargedSide_queued (h : (s.entry i).custody = .queued q) : chargedSide s i = some (s.chan q.chan).source := by
  simp [chargedSide, h]

/-- A record some side holds is HELD by that side. -/
theorem heldBy_iff {x : Side} : heldBy s x i = true ↔ ∃ h, (s.entry i).custody = .held h ∧ h.holder = x := by
  unfold heldBy
  cases (s.entry i).custody <;> simp

end

/-! ## Views of records whose entries agree -/

section
variable {s t : State} {i : RecIdx} (h : t.entry i = s.entry i)
include h
theorem segsOf_congr : segsOf t i = segsOf s i := by simp [segsOf, h]
theorem pinsOf_congr : pinsOf t i = pinsOf s i := by simp [pinsOf, h]
theorem fillingOf_congr : fillingOf t i = fillingOf s i := by simp [fillingOf, h]
theorem lengthOf_congr : lengthOf t i = lengthOf s i := by simp [lengthOf, h]
theorem heldBy_congr (x : Side) : heldBy t x i = heldBy s x i := by simp [heldBy, h]
end

/-! ## Sums over the records -/

theorem sum_map_filter (p : RecIdx → Bool) (f : RecIdx → Nat) (l : List RecIdx) :
    ((l.filter p).map f).sum = (l.map fun i => if p i then f i else 0).sum := by
  induction l with
  | nil => rfl
  | cons a rest ih => by_cases h : p a <;> simp [h, ih]

/-- A sum of which one term changes. -/
theorem sum_change_one {f g : RecIdx → Nat} (i : RecIdx) (h : ∀ j, j ≠ i → g j = f j) : ∑ j, g j + f i = ∑ j, f j + g i := by
  have hr : ∑ j ∈ Finset.univ.erase i, g j = ∑ j ∈ Finset.univ.erase i, f j :=
    Finset.sum_congr rfl fun j hj => h j (Finset.ne_of_mem_erase hj)
  have hg := Finset.sum_erase_add Finset.univ g (Finset.mem_univ i)
  have hf := Finset.sum_erase_add Finset.univ f (Finset.mem_univ i)
  omega

/-- The list holds every segment once exactly when it has no double and 512 entries. -/
theorem nodup_512_iff_count (l : List SegNo) : l.Nodup ∧ l.length = 512 ↔ ∀ g, l.count g = 1 := by
  constructor
  · rintro ⟨hn, hl⟩ g
    have hu : l.toFinset = Finset.univ := by
      apply Finset.eq_univ_of_card
      rw [List.toFinset_card_of_nodup hn, hl, Fintype.card_fin]
    exact List.count_eq_one_of_mem hn (List.mem_toFinset.1 (hu ▸ Finset.mem_univ g))
  · intro h
    have hn : l.Nodup := List.nodup_iff_count_le_one.2 fun g => (h g).le
    refine ⟨hn, ?_⟩
    have hu : l.toFinset = Finset.univ :=
      Finset.eq_univ_iff_forall.2 fun g => List.mem_toFinset.2 (List.count_pos_iff.1 (by rw [h g]; exact Nat.one_pos))
    rw [← List.toFinset_card_of_nodup hn, hu, Finset.card_univ, Fintype.card_fin]

/-- R30 as a count: each segment stands once among the free segments and the segments of the records. -/
theorem segmentsInv_iff (s : State) :
    SegmentsInv s ↔ (∀ g, s.freeSegs.count g + ∑ i, (segsOf s i).count g = 1) ∧
      ∀ i, (s.entry i).custody ≠ .free → 1 ≤ (segsOf s i).length ∧ (segsOf s i).length ≤ 32 := by
  have hc : ∀ g, (s.freeSegs ++ (List.finRange 128).flatMap (segsOf s)).count g =
      s.freeSegs.count g + ∑ i, (segsOf s i).count g := fun g => by
    rw [List.count_append, List.count_flatMap, Fin.sum_univ_def]
    rfl
  simp only [SegmentsInv, ← hc, ← nodup_512_iff_count, and_assoc]

/-- The segments record `i` charges to side `x` (R33). -/
def chargeOn (s : State) (x : Side) (i : RecIdx) : Nat := if chargedSide s i = some x then (segsOf s i).length else 0

theorem chargedSegs_eq (s : State) (x : Side) : chargedSegs s x = ∑ i, chargeOn s x i := by
  rw [chargedSegs, sum_map_filter, Fin.sum_univ_def]
  simp only [beq_iff_eq]
  rfl

/-- 1 where record `i` counts as outstanding on channel `c`: it is queued there, or HELD with `c` as origin (R49). -/
def tiedTo (s : State) (c : ChanNo) (i : RecIdx) : Nat :=
  match (s.entry i).custody with
  | .free => 0
  | .held h => if h.origin = some c then 1 else 0
  | .queued q => if q.chan = c then 1 else 0

/-- R49's count, given R48: the queue and the records HELD from the channel are the records tied to it. -/
theorem outstanding_eq_sum {s : State} (hq : QueuesInv s) (c : ChanNo) :
    (s.chan c).queue.length + ((List.finRange 128).filter (heldFrom s c)).length = ∑ i, tiedTo s c i := by
  have hqueue : (s.chan c).queue.length = ∑ i : RecIdx, if i ∈ (s.chan c).queue then 1 else 0 := by
    rw [← List.toFinset_card_of_nodup (hq c).1, ← Finset.sum_filter, Finset.sum_const, smul_eq_mul, mul_one]
    congr 1
    ext i
    simp
  have hheld : ((List.finRange 128).filter (heldFrom s c)).length = ∑ i : RecIdx, if heldFrom s c i then 1 else 0 := by
    rw [Fin.sum_univ_def, ← sum_map_filter]
    simp
  rw [hqueue, hheld, ← Finset.sum_add_distrib]
  refine Finset.sum_congr rfl fun i _ => ?_
  have hm := (hq c).2 i
  cases h : (s.entry i).custody <;> simp [tiedTo, heldFrom, hm, h]

end Sys2Proof.Machine
end

section
/-! The invariant in three parts: the table with its copy jobs, what the ports and lines keep, and the response slot. -/

namespace Sys2Proof.Machine

/-! ## The invariant, cut -/

/-- R153: no condition is latched at either side, and no APERTURE_FAULT at HOST. -/
def LatchedOk (m : Per EventSet) : Prop :=
  m.host &&& eventMask .apertureFault = 0 ∧ ∀ x : Side, m.get x &&& (eventMask .claimable ||| eventMask .tally) = 0

/-- `JobsInv`, but that the records `D` names may be filling with no job in the queue: the clones of a removal that is not yet finished. -/
structure JobsBut (D : RecIdx → Prop) (s : State) : Prop where
  few : s.jobs.length ≤ 4
  clonesNodup : (s.jobs.map Job.clone).Nodup
  source : ∀ j ∈ s.jobs, heldBy s j.side j.source = true ∧ fillingOf s j.source = false
  clone : ∀ j ∈ s.jobs, heldBy s j.side j.clone = true ∧ fillingOf s j.clone = true
  attached : ∀ j ∈ s.jobs, s.session.get j.side = .attached
  length : ∀ j ∈ s.jobs, lengthOf s j.clone = lengthOf s j.source
  pins : ∀ i : RecIdx, pinsOf s i = (s.jobs.filter fun j => j.source == i).length
  orphan : ∀ (i : RecIdx) (x : Side), heldBy s x i = true → fillingOf s i = true → (∀ j ∈ s.jobs, j.clone ≠ i) →
    s.session.get x ≠ .attached ∨ D i
  progress : ∀ j, s.jobs.head? = some j → s.progress ≤ jobSteps s j
  idle : s.jobs = [] → s.progress = 0

theorem jobsInv_iff (s : State) : JobsInv s ↔ JobsBut (fun _ => False) s := by
  constructor
  · rintro ⟨few, nodup, jobs, pins, orphan, progress, idle⟩
    refine ⟨few, nodup, fun j hj => (jobs j hj).1, fun j hj => (jobs j hj).2.1, fun j hj => (jobs j hj).2.2.1,
      fun j hj => (jobs j hj).2.2.2, pins, fun i x hx hf hn => ?_, progress, idle⟩
    exact Or.inl (orphan i x hx hf (by simpa using hn))
  · rintro ⟨few, nodup, source, clone, attached, length, pins, orphan, progress, idle⟩
    refine ⟨few, nodup, fun j hj => ⟨source j hj, clone j hj, attached j hj, length j hj⟩, pins, fun i x hx hf hn => ?_,
      progress, idle⟩
    exact (orphan i x hx hf (by simpa using hn)).resolve_right id

/-- The invariants of the table, its queues, charges, copy jobs, holders and latched sets; `D` as in `JobsBut`. -/
structure TableInv (D : RecIdx → Prop) (s : State) : Prop where
  freeRecords : FreeRecordsInv s
  segments : SegmentsInv s
  charges : ChargesInv s
  queues : QueuesInv s
  outstanding : OutstandingInv s
  channelRanges : ChannelRangesInv s
  records : RecordsInv s
  jobs : JobsBut D s
  aperture : ApertureInv s
  sessions : SessionsInv s
  flush : FlushInv s
  latched : LatchedOk s.latched

/-- The invariants of the parts a table operation leaves alone. -/
structure AmbientInv (s : State) : Prop where
  enables : ∀ x : Side, s.session.get x ≠ .attached → s.enables.get x = 0
  receiver : ReceiverInv s
  store : StoreInv s
  poolRanges : PoolRangesInv s
  resetHeld : ResetHeldInv s

/-- The table's invariants with no exception. -/
abbrev TableInv.Full (s : State) : Prop := TableInv (fun _ => False) s

theorem inv_iff (s : State) : Inv s ↔ TableInv.Full s ∧ AmbientInv s ∧ PortInv s := by
  constructor
  · intro h
    exact ⟨⟨h.freeRecords, h.segments, h.charges, h.queues, h.outstanding, h.channelRanges, h.records, (jobsInv_iff s).1 h.jobs,
        h.aperture, h.sessions, h.flush, h.events.1, fun x => (h.events.2 x).1⟩,
      ⟨fun x => (h.events.2 x).2, h.receiver, h.store, h.poolRanges, h.resetHeld⟩, h.port⟩
  · rintro ⟨t, a, p⟩
    exact ⟨t.freeRecords, t.segments, t.charges, t.queues, t.outstanding, t.channelRanges, t.records, (jobsInv_iff s).2 t.jobs,
      t.aperture, t.sessions, t.flush, ⟨t.latched.1, fun x => ⟨t.latched.2 x, a.enables x⟩⟩, p, a.receiver, a.store, a.poolRanges,
      a.resetHeld⟩

/-! ## What the invariants say of one record -/

section
variable {D : RecIdx → Prop} {s : State} (hs : TableInv D s) {i : RecIdx}
include hs

theorem TableInv.held {h : Held} (hc : (s.entry i).custody = .held h) : heldOk s h := by
  have := hs.records i
  rwa [hc] at this

theorem TableInv.queued {q : Queued} (hc : (s.entry i).custody = .queued q) : queuedOk q := by
  have := hs.records i
  rwa [hc] at this

/-- A HELD record with an origin is held by the side its origin channel serves (R56). -/
theorem TableInv.held_from {h : Held} (hc : (s.entry i).custody = .held h) {c : ChanNo} (ho : h.origin = some c) :
    h.holder = chanDest (s.chan c) ∧ h.buf.filling = false ∧
      ∀ l, h.lease = some l → 1 ≤ l.remaining ∧ l.remaining ≤ (s.chan c).leaseTime := by
  obtain ⟨-, -, k⟩ := hs.held hc
  rwa [ho] at k

/-- A filling clone is unpinned, and comes from no channel (R3, R99). -/
theorem TableInv.filling {h : Held} (hc : (s.entry i).custody = .held h) (hf : h.buf.filling = true) :
    h.buf.pins = 0 ∧ h.origin = none := by
  refine ⟨(hs.held hc).2.1 hf, ?_⟩
  cases ho : h.origin with
  | none => rfl
  | some c => exact absurd hf (by simp [(hs.held_from hc ho).2.1])

/-- A record in a queue is QUEUED on that channel (R48). -/
theorem TableInv.queued_of_mem {c : ChanNo} (h : i ∈ (s.chan c).queue) :
    ∃ q, (s.entry i).custody = .queued q ∧ q.chan = c := ((hs.queues c).2 i).1 h

/-- The side of a record's holder is not DETACHED (R126). -/
theorem TableInv.not_detached {h : Held} (hc : (s.entry i).custody = .held h) : s.session.get h.holder ≠ .detached := fun hd => by
  have := hs.sessions h.holder i ((heldBy_held hc _).2 rfl)
  rwa [hd] at this

/-- An unpinned record that is not filling is in no copy job (R99). -/
theorem TableInv.unnamed (hp : pinsOf s i = 0) (hf : fillingOf s i = false) : ∀ j ∈ s.jobs, j.source ≠ i ∧ j.clone ≠ i := by
  intro j hj
  constructor
  · rintro rfl
    have := hs.jobs.pins j.source
    rw [hp] at this
    have hm : j ∈ s.jobs.filter fun k => k.source == j.source := List.mem_filter.2 ⟨hj, by simp⟩
    rw [List.length_eq_zero_iff.1 this.symm] at hm
    exact absurd hm List.not_mem_nil
  · rintro rfl
    exact absurd (hs.jobs.clone j hj).2 (by simp [hf])

/-- R49 as a sum over the records tied to the channel. -/
theorem TableInv.outstanding_eq (c : ChanNo) : (s.chan c).outstanding = ∑ j, tiedTo s c j := by
  rw [← outstanding_eq_sum hs.queues, (hs.outstanding c).1]

/-- A record tied to a channel counts as outstanding there. -/
theorem TableInv.tied_le (c : ChanNo) : tiedTo s c i ≤ (s.chan c).outstanding := by
  rw [hs.outstanding_eq]
  exact Finset.single_le_sum (f := tiedTo s c) (fun _ _ => Nat.zero_le _) (Finset.mem_univ i)

/-- What a record charges is part of the side's charge. -/
theorem TableInv.chargeOn_le (x : Side) : chargeOn s x i ≤ s.charge.get x := by
  rw [hs.charges x, chargedSegs_eq]
  exact Finset.single_le_sum (f := chargeOn s x) (fun _ _ => Nat.zero_le _) (Finset.mem_univ i)

/-- Nothing is tied to a channel with nothing outstanding. -/
theorem TableInv.idle_channel {c : ChanNo} (h0 : (s.chan c).outstanding = 0) : (s.chan c).queue = [] ∧ ∀ j, tiedTo s c j = 0 := by
  constructor
  · have := (hs.outstanding c).1
    exact List.length_eq_zero_iff.1 (by omega)
  · intro j
    have := hs.tied_le (i := j) c
    omega

end

/-! ## The latched sets (R153 to R155) -/

/-- The events that may be latched at side `x`: no condition, and APERTURE_FAULT at LOCAL alone (R153). -/
def mayLatch (x : Side) (e : Event) : Bool :=
  e != .claimable && e != .tally && !(e == .apertureFault && x == .host)

theorem LatchedOk.set_plus {m : Per EventSet} (h : LatchedOk m) {x : Side} {e : Event} (hl : mayLatch x e = true) :
    LatchedOk (m.set x (m.get x ||| eventMask e)) := by
  obtain ⟨hh, hx⟩ := h
  have key : eventMask e &&& (eventMask .claimable ||| eventMask .tally) = 0 ∧
      (x = .host → eventMask e &&& eventMask .apertureFault = 0) := by
    revert hl
    cases e <;> cases x <;> decide
  have hor : ∀ a b k : EventSet, a &&& k = 0 → b &&& k = 0 → (a ||| b) &&& k = 0 := fun a b k ha hb => by
    rw [BitVec.and_comm, BitVec.and_or_distrib_left, BitVec.and_comm k a, BitVec.and_comm k b, ha, hb]; rfl
  constructor
  · cases x with
    | host => exact hor _ _ _ hh (key.2 rfl)
    | loc => exact hh
  · intro y
    rw [Per.get_set]
    split
    · exact hor _ _ _ (hx x) key.1
    · exact hx y

theorem LatchedOk.set_zero {m : Per EventSet} (h : LatchedOk m) (x : Side) : LatchedOk (m.set x 0) := by
  obtain ⟨hh, hx⟩ := h
  constructor
  · cases x with
    | host => exact BitVec.zero_and
    | loc => exact hh
  · intro y
    rw [Per.get_set]
    split
    · exact BitVec.zero_and
    · exact hx y

theorem LatchedOk.latch {s : State} (h : LatchedOk s.latched) {x : Side} {e : Event} (hl : mayLatch x e = true) :
    LatchedOk (latch x e s).latched := h.set_plus hl

theorem LatchedOk.latchBoth {s : State} (h : LatchedOk s.latched) {e : Event} (hl : ∀ x, mayLatch x e = true) :
    LatchedOk (latchBoth e s).latched := LatchedOk.latch (h.latch (hl .host)) (hl .loc)

theorem LatchedOk.takeSegs {s : State} (h : LatchedOk s.latched) (n : Nat) : LatchedOk (takeSegs n s).latched := by
  unfold Machine.takeSegs
  dsimp only
  split
  · exact LatchedOk.latchBoth h fun x => by cases x <;> rfl
  · exact h

theorem LatchedOk.giveSegs {s : State} (h : LatchedOk s.latched) (l : List SegNo) : LatchedOk (giveSegs l s).latched := by
  unfold Machine.giveSegs
  dsimp only
  split
  · exact LatchedOk.latchBoth h fun x => by cases x <;> rfl
  · exact h

end Sys2Proof.Machine
end

section
/-! The two ways a table operation acts: one record moves to another place, or records are edited where they stand. -/

namespace Sys2Proof.Machine

/-! ## One record moves -/

/-- The two channels are configured alike. -/
structure SameConfig (a b : Channel) : Prop where
  enabled : a.enabled = b.enabled
  source : a.source = b.source
  depth : a.depth = b.depth
  priority : a.priority = b.priority
  leaseTime : a.leaseTime = b.leaseTime
  flush : a.flush = b.flush

theorem SameConfig.refl (a : Channel) : SameConfig a a := ⟨rfl, rfl, rfl, rfl, rfl, rfl⟩

theorem SameConfig.dest {a b : Channel} (h : SameConfig a b) : chanDest a = chanDest b := congrArg peer h.source

/-- Record `i` alone moves: between the free list, a queue and a holder. What it takes with it (segments, charge, outstanding count)
is balanced against where it stood. It is in no copy job; `D` and `D'` are the exceptions of `JobsBut` before and after. -/
structure Moves (D D' : RecIdx → Prop) (i : RecIdx) (s t : State) : Prop where
  others : ∀ j, j ≠ i → t.entry j = s.entry j
  freeRecs : t.freeRecs.Nodup ∧ (i ∈ t.freeRecs ↔ (t.entry i).custody = .free) ∧ ∀ j, j ≠ i → (j ∈ t.freeRecs ↔ j ∈ s.freeRecs)
  segs : ∀ g, t.freeSegs.count g + (segsOf t i).count g = s.freeSegs.count g + (segsOf s i).count g
  segCount : (t.entry i).custody ≠ .free → 1 ≤ (segsOf t i).length ∧ (segsOf t i).length ≤ 32
  charge : ∀ x, t.charge.get x + chargeOn s x i = s.charge.get x + chargeOn t x i
  config : ∀ c, SameConfig (t.chan c) (s.chan c)
  tally : ∀ c, (t.chan c).tally ≤ 65535
  queues : ∀ c, (t.chan c).queue.Nodup ∧ (i ∈ (t.chan c).queue ↔ ∃ q, (t.entry i).custody = .queued q ∧ q.chan = c) ∧
    ∀ j, j ≠ i → (j ∈ (t.chan c).queue ↔ j ∈ (s.chan c).queue)
  outstanding : ∀ c, (t.chan c).outstanding + tiedTo s c i = (s.chan c).outstanding + tiedTo t c i
  room : ∀ c, (t.chan c).outstanding ≤ (s.chan c).outstanding ∨
    (s.chan c).enabled = true ∧ (t.chan c).outstanding ≤ (s.chan c).depth
  fields : match (t.entry i).custody with | .free => True | .held h => heldOk t h | .queued q => queuedOk q
  jobs : t.jobs = s.jobs
  progress : t.progress = s.progress
  session : t.session = s.session
  unnamed : ∀ j ∈ s.jobs, j.source ≠ i ∧ j.clone ≠ i
  pins : pinsOf t i = 0
  excused : (∀ j, j ≠ i → D j → D' j) ∧ (fillingOf t i = true → D' i)
  aperture : ∀ j, t.aperture = some j → j ≠ i ∧ s.aperture = some j
  holder : ∀ x, heldBy t x i = true → s.session.get x = .attached
  flush : ∀ q, (t.entry i).custody = .queued q → (s.chan q.chan).flush = true →
    s.session.get (chanDest (s.chan q.chan)) ≠ .detached
  latched : LatchedOk t.latched

/-- What a HELD record's fields must meet depends on the channels' configuration alone. -/
theorem heldOk_congr {s t : State} (h : ∀ c, SameConfig (t.chan c) (s.chan c)) (k : Held) :
    heldOk t k ↔ heldOk s k := by
  unfold heldOk
  cases k.origin with
  | none => rfl
  | some c => simp only [(h c).dest, (h c).leaseTime]

namespace Moves

variable {D D' : RecIdx → Prop} {i : RecIdx} {s t : State}

theorem freeRecordsInv (m : Moves D D' i s t) (hs : FreeRecordsInv s) : FreeRecordsInv t := by
  obtain ⟨nodup, hi, hj⟩ := m.freeRecs
  refine ⟨nodup, fun j => ?_⟩
  by_cases h : j = i
  · rw [h, hi]
  · rw [hj j h, hs.2 j, m.others j h]

theorem segmentsInv (m : Moves D D' i s t) (hs : SegmentsInv s) : SegmentsInv t := by
  rw [segmentsInv_iff] at hs ⊢
  obtain ⟨count, size⟩ := hs
  constructor
  · intro g
    have := sum_change_one (f := fun j => (segsOf s j).count g) (g := fun j => (segsOf t j).count g) i
      fun j hj => by simp only [segsOf_congr (m.others j hj)]
    have := count g
    have := m.segs g
    omega
  · intro j hj
    by_cases h : j = i
    · subst h
      exact m.segCount hj
    · rw [segsOf_congr (m.others j h)]
      exact size j (by rwa [← m.others j h])

theorem chargedSide_other (m : Moves D D' i s t) {j : RecIdx} (h : j ≠ i) : chargedSide t j = chargedSide s j := by
  simp only [chargedSide, m.others j h, (m.config _).source]

theorem chargesInv (m : Moves D D' i s t) (hs : ChargesInv s) : ChargesInv t := by
  intro x
  have := hs x
  have := m.charge x
  have := sum_change_one (f := chargeOn s x) (g := chargeOn t x) i fun j hj => by
    simp only [chargeOn, m.chargedSide_other hj, segsOf_congr (m.others j hj)]
  rw [chargedSegs_eq] at *
  omega

theorem queuesInv (m : Moves D D' i s t) (hs : QueuesInv s) : QueuesInv t := by
  intro c
  obtain ⟨nodup, hi, hj⟩ := m.queues c
  refine ⟨nodup, fun j => ?_⟩
  by_cases h : j = i
  · rw [h, hi]
  · rw [hj j h, (hs c).2 j, m.others j h]

theorem outstandingInv (m : Moves D D' i s t) (hs : TableInv D s) : OutstandingInv t := by
  intro c
  obtain ⟨-, depth, depth32, disabled, configured⟩ := hs.outstanding c
  have cfg := m.config c
  refine ⟨?_, ?_, ?_, ?_, ?_⟩
  · rw [outstanding_eq_sum (m.queuesInv hs.queues)]
    have := hs.outstanding_eq c
    have := m.outstanding c
    have := sum_change_one (f := tiedTo s c) (g := tiedTo t c) i fun j hj => by simp only [tiedTo, m.others j hj]
    omega
  · rw [cfg.depth]
    rcases m.room c with h | h
    · omega
    · exact h.2
  · rwa [cfg.depth]
  · rw [cfg.enabled]
    intro he
    rcases m.room c with h | h
    · have := disabled he; omega
    · exact absurd h.1 (by simp [he])
  · rwa [cfg.enabled, cfg.depth]

theorem channelRangesInv (m : Moves D D' i s t) (hs : ChannelRangesInv s) : ChannelRangesInv t := fun c => by
  obtain ⟨hp, hl, -⟩ := hs c
  exact ⟨(m.config c).priority ▸ hp, (m.config c).leaseTime ▸ hl, m.tally c⟩

theorem recordsInv (m : Moves D D' i s t) (hs : RecordsInv s) : RecordsInv t := by
  intro j
  by_cases h : j = i
  · subst h
    exact m.fields
  · have := hs j
    rw [m.others j h]
    cases hc : (s.entry j).custody with
    | free => trivial
    | held k =>
      rw [hc] at this
      exact (heldOk_congr m.config k).2 this
    | queued q =>
      rw [hc] at this
      exact this

theorem jobsBut (m : Moves D D' i s t) (hs : JobsBut D s) : JobsBut D' t := by
  have src : ∀ j ∈ s.jobs, t.entry j.source = s.entry j.source := fun j hj => m.others _ (m.unnamed j hj).1
  have cln : ∀ j ∈ s.jobs, t.entry j.clone = s.entry j.clone := fun j hj => m.others _ (m.unnamed j hj).2
  have jobs := m.jobs
  refine
    { few := by rw [jobs]; exact hs.few
      clonesNodup := by rw [jobs]; exact hs.clonesNodup
      source := ?_, clone := ?_, attached := ?_, length := ?_, pins := ?_, orphan := ?_, progress := ?_
      idle := by rw [jobs, m.progress]; exact hs.idle } <;> rw [jobs]
  · intro j hj
    rw [heldBy_congr (src j hj), fillingOf_congr (src j hj)]
    exact hs.source j hj
  · intro j hj
    rw [heldBy_congr (cln j hj), fillingOf_congr (cln j hj)]
    exact hs.clone j hj
  · rw [m.session]
    exact hs.attached
  · intro j hj
    rw [lengthOf_congr (cln j hj), lengthOf_congr (src j hj)]
    exact hs.length j hj
  · intro k
    by_cases h : k = i
    · subst h
      rw [m.pins, List.filter_eq_nil_iff.2 fun j hj => by simpa using (m.unnamed j hj).1, List.length_nil]
    · rw [pinsOf_congr (m.others k h)]
      exact hs.pins k
  · intro k x hx hf hn
    by_cases h : k = i
    · subst h
      exact Or.inr (m.excused.2 hf)
    · rw [heldBy_congr (m.others k h)] at hx
      rw [fillingOf_congr (m.others k h)] at hf
      rw [m.session]
      exact (hs.orphan k x hx hf hn).imp_right (m.excused.1 k h)
  · intro j hj
    have hp := hs.progress j hj
    rw [m.progress]
    rwa [jobSteps, lengthOf_congr (src j (List.mem_of_head? hj))]

theorem apertureInv (m : Moves D D' i s t) (hs : ApertureInv s) : ApertureInv t := by
  intro j hj
  obtain ⟨hne, ha⟩ := m.aperture j hj
  rw [heldBy_congr (m.others j hne), fillingOf_congr (m.others j hne), m.session]
  exact hs j ha

theorem sessionsInv (m : Moves D D' i s t) (hs : SessionsInv s) : SessionsInv t := by
  intro x j hj
  rw [m.session]
  by_cases h : j = i
  · subst h
    rw [m.holder x hj]
    trivial
  · exact hs x j (by rwa [← heldBy_congr (m.others j h)])

theorem flushInv (m : Moves D D' i s t) (hs : FlushInv s) : FlushInv t := by
  intro c hf hd
  have cfg := m.config c
  rw [cfg.flush] at hf
  rw [cfg.dest, m.session] at hd
  obtain ⟨-, hi, hj⟩ := m.queues c
  refine List.eq_nil_iff_forall_not_mem.2 fun j hm => ?_
  by_cases h : j = i
  · subst h
    obtain ⟨q, hq, rfl⟩ := hi.1 hm
    exact m.flush q hq hf hd
  · have := (hj j h).1 hm
    rw [hs c hf hd] at this
    exact absurd this List.not_mem_nil

/-- A move keeps the table's invariants. -/
theorem tableInv (m : Moves D D' i s t) (hs : TableInv D s) : TableInv D' t where
  freeRecords := m.freeRecordsInv hs.freeRecords
  segments := m.segmentsInv hs.segments
  charges := m.chargesInv hs.charges
  queues := m.queuesInv hs.queues
  outstanding := m.outstandingInv hs
  channelRanges := m.channelRangesInv hs.channelRanges
  records := m.recordsInv hs.records
  jobs := m.jobsBut hs.jobs
  aperture := m.apertureInv hs.aperture
  sessions := m.sessionsInv hs.sessions
  flush := m.flushInv hs.flush
  latched := m.latched

end Moves

/-! ## Records edited where they stand -/

/-- The two custodies have the same state, holder, origin, channel and segments: what the lists, charges, queues and counts go by. -/
inductive SameShape : Custody → Custody → Prop
  | free : SameShape .free .free
  | held (h k : Held) : k.holder = h.holder → k.origin = h.origin → k.buf.segs = h.buf.segs → SameShape (.held h) (.held k)
  | queued (q r : Queued) : r.chan = q.chan → r.buf.segs = q.buf.segs → SameShape (.queued q) (.queued r)

theorem SameShape.refl (c : Custody) : SameShape c c := by
  cases c with
  | free => exact .free
  | held h => exact .held h h rfl rfl rfl
  | queued q => exact .queued q q rfl rfl

/-- A change of the buffer that keeps its segments keeps the shape. -/
theorem SameShape.mapBuf {f : Buffer → Buffer} (hf : ∀ b, (f b).segs = b.segs) (c : Custody) : SameShape c (c.mapBuf f) := by
  cases c with
  | free => exact .free
  | held h => exact .held _ _ rfl rfl (hf _)
  | queued q => exact .queued _ _ rfl (hf _)

/-- Records change in fields other than their shape; the lists, charges and channels are as they were. -/
structure EditsInPlace (s t : State) : Prop where
  shape : ∀ i, SameShape (s.entry i).custody (t.entry i).custody
  freeRecs : t.freeRecs = s.freeRecs
  freeSegs : t.freeSegs = s.freeSegs
  charge : t.charge = s.charge
  chans : t.chans = s.chans

namespace EditsInPlace

variable {D D' : RecIdx → Prop} {s t : State}

theorem chan (e : EditsInPlace s t) (c : ChanNo) : t.chan c = s.chan c := chan_eq_of_chans e.chans c

theorem free_iff (e : EditsInPlace s t) (i : RecIdx) : (t.entry i).custody = .free ↔ (s.entry i).custody = .free := by
  have h := e.shape i
  generalize (s.entry i).custody = a, (t.entry i).custody = b at h ⊢
  cases h <;> simp

theorem queued_iff (e : EditsInPlace s t) (i : RecIdx) (c : ChanNo) :
    (∃ q, (t.entry i).custody = .queued q ∧ q.chan = c) ↔ ∃ q, (s.entry i).custody = .queued q ∧ q.chan = c := by
  have h := e.shape i
  generalize (s.entry i).custody = a, (t.entry i).custody = b at h ⊢
  cases h with
  | free => simp
  | held => simp
  | queued q r hc => simp [hc]

theorem segsOf_eq (e : EditsInPlace s t) (i : RecIdx) : segsOf t i = segsOf s i := by
  unfold segsOf
  have h := e.shape i
  generalize (s.entry i).custody = a, (t.entry i).custody = b at h ⊢
  cases h with
  | free => rfl
  | held k l _ _ hs => simp [Custody.buf?, hs]
  | queued q r _ hs => simp [Custody.buf?, hs]

theorem heldBy_eq (e : EditsInPlace s t) (x : Side) (i : RecIdx) : heldBy t x i = heldBy s x i := by
  unfold heldBy
  have h := e.shape i
  generalize (s.entry i).custody = a, (t.entry i).custody = b at h ⊢
  cases h with
  | free => rfl
  | held k l hh => simp [hh]
  | queued => rfl

theorem tiedTo_eq (e : EditsInPlace s t) (c : ChanNo) (i : RecIdx) : tiedTo t c i = tiedTo s c i := by
  unfold tiedTo
  have h := e.shape i
  generalize (s.entry i).custody = a, (t.entry i).custody = b at h ⊢
  cases h with
  | free => rfl
  | held k l _ ho => simp [ho]
  | queued q r hc => simp [hc]

theorem chargedSide_eq (e : EditsInPlace s t) (i : RecIdx) : chargedSide t i = chargedSide s i := by
  simp only [chargedSide, e.chan]
  have h := e.shape i
  generalize (s.entry i).custody = a, (t.entry i).custody = b at h ⊢
  cases h with
  | free => rfl
  | held k l hh => simp [hh]
  | queued q r hc => simp [hc]

theorem heldOk_iff (e : EditsInPlace s t) (k : Held) : heldOk t k ↔ heldOk s k :=
  heldOk_congr (fun c => by rw [e.chan]; exact .refl _) k

theorem sessionsInv (e : EditsInPlace s t) (hses : t.session = s.session) (hs : SessionsInv s) : SessionsInv t := by
  intro x i hi
  rw [hses]
  exact hs x i (by rwa [← e.heldBy_eq])

theorem flushInv (e : EditsInPlace s t) (hses : t.session = s.session) (hs : FlushInv s) : FlushInv t := by
  intro c
  rw [e.chan, hses]
  exact hs c

/-- An edit keeps the table's invariants when what it leaves meets those about the edited fields and the sessions. -/
theorem tableInv (e : EditsInPlace s t) (hs : TableInv D s) (records : RecordsInv t) (jobs : JobsBut D' t)
    (aperture : ApertureInv t) (sessions : SessionsInv t) (flush : FlushInv t) (latched : LatchedOk t.latched) :
    TableInv D' t := by
  have queues : QueuesInv t := fun c => by
    rw [e.chan]
    exact ⟨(hs.queues c).1, fun i => by rw [(hs.queues c).2 i, e.queued_iff]⟩
  refine { freeRecords := ?_, segments := ?_, charges := ?_, queues := queues, outstanding := ?_, channelRanges := ?_,
           records := records, jobs := jobs, aperture := aperture, sessions := sessions, flush := flush, latched := latched }
  · rw [FreeRecordsInv, e.freeRecs]
    exact ⟨hs.freeRecords.1, fun i => by rw [hs.freeRecords.2 i, e.free_iff]⟩
  · have h := hs.segments
    rw [segmentsInv_iff] at h ⊢
    simp only [e.segsOf_eq, e.freeSegs, ne_eq, e.free_iff]
    exact h
  · intro x
    rw [e.charge, hs.charges x, chargedSegs_eq, chargedSegs_eq]
    exact Finset.sum_congr rfl fun i _ => by simp only [chargeOn, e.chargedSide_eq, e.segsOf_eq]
  · intro c
    rw [outstanding_eq_sum queues, e.chan]
    refine ⟨?_, (hs.outstanding c).2⟩
    rw [hs.outstanding_eq]
    exact Finset.sum_congr rfl fun i _ => (e.tiedTo_eq c i).symm
  · intro c
    rw [e.chan]
    exact hs.channelRanges c

end EditsInPlace

end Sys2Proof.Machine
end

section
/-! Edits in place: lengths, tags and leases, the removal of copy jobs, and updates outside the table. -/

namespace Sys2Proof.Machine

variable {D D' : RecIdx → Prop} {s t : State}

/-! ## States with one table -/

/-- The two states agree in every field the table's invariants speak of. -/
structure SameTable (s t : State) : Prop where
  records : t.records = s.records
  freeRecs : t.freeRecs = s.freeRecs
  freeSegs : t.freeSegs = s.freeSegs
  charge : t.charge = s.charge
  chans : t.chans = s.chans
  jobs : t.jobs = s.jobs
  progress : t.progress = s.progress
  session : t.session = s.session
  latched : t.latched = s.latched
  aperture : t.aperture = s.aperture

/-! ## Edits that keep the jobs -/

/-- Copy jobs go by the queue, the sessions, and what each record shows of its holder, filling flag, pin count and length. -/
theorem JobsBut.congr (hs : JobsBut D s) (jobs : t.jobs = s.jobs) (progress : t.progress = s.progress)
    (session : t.session = s.session) (held : ∀ x i, heldBy t x i = heldBy s x i) (filling : ∀ i, fillingOf t i = fillingOf s i)
    (pins : ∀ i, pinsOf t i = pinsOf s i) (length : ∀ j ∈ s.jobs, lengthOf t j.source = lengthOf s j.source ∧
      lengthOf t j.clone = lengthOf s j.clone) : JobsBut D t where
  few := by rw [jobs]; exact hs.few
  clonesNodup := by rw [jobs]; exact hs.clonesNodup
  source := by simp only [jobs, held, filling]; exact hs.source
  clone := by simp only [jobs, held, filling]; exact hs.clone
  attached := by rw [jobs, session]; exact hs.attached
  length := by
    rw [jobs]
    intro j hj
    rw [(length j hj).1, (length j hj).2]
    exact hs.length j hj
  pins := by simp only [jobs, pins]; exact hs.pins
  orphan := by simp only [jobs, session, held, filling]; exact hs.orphan
  progress := by
    rw [jobs, progress]
    intro j hj
    rw [jobSteps, (length j (List.mem_of_head? hj)).1]
    exact hs.progress j hj
  idle := by rw [jobs, progress]; exact hs.idle

/-- The edits of tags, lengths and leases: the copy queue, the sessions and the aperture are as they were, no pin count or filling flag
changes, and the length of no record in a copy job. -/
theorem EditsInPlace.tableInv_of_views (e : EditsInPlace s t) (hs : TableInv D s) (records : RecordsInv t) (jobs : t.jobs = s.jobs)
    (progress : t.progress = s.progress) (session : t.session = s.session) (aperture : t.aperture = s.aperture)
    (filling : ∀ i, fillingOf t i = fillingOf s i) (pins : ∀ i, pinsOf t i = pinsOf s i)
    (length : ∀ j ∈ s.jobs, lengthOf t j.source = lengthOf s j.source ∧ lengthOf t j.clone = lengthOf s j.clone)
    (latched : LatchedOk t.latched) : TableInv D t := by
  refine e.tableInv hs records (hs.jobs.congr jobs progress session e.heldBy_eq filling pins length) ?_
    (e.sessionsInv session hs.sessions) (e.flushInv session hs.flush) latched
  intro i hi
  rw [aperture] at hi
  rw [e.heldBy_eq, filling, session]
  exact hs.aperture i hi

/-- An update of fields the table's invariants do not speak of, beyond a latched event, keeps them. -/
theorem TableInv.of_latched (hs : TableInv D s) (h : SameTable { s with latched := t.latched } t) (latched : LatchedOk t.latched) :
    TableInv D t := by
  have entry : ∀ i, t.entry i = s.entry i := entry_eq_of_records h.records
  have chan : ∀ c, t.chan c = s.chan c := chan_eq_of_chans h.chans
  have e : EditsInPlace s t :=
    ⟨fun i => by rw [entry]; exact .refl _, h.freeRecs, h.freeSegs, h.charge, h.chans⟩
  refine e.tableInv_of_views hs ?_ h.jobs h.progress h.session h.aperture (fun i => fillingOf_congr (entry i))
    (fun i => pinsOf_congr (entry i)) (fun j _ => ⟨lengthOf_congr (entry _), lengthOf_congr (entry _)⟩) latched
  intro i
  simp only [entry, e.heldOk_iff]
  exact hs.records i

theorem TableInv.congr (hs : TableInv D s) (h : SameTable s t) : TableInv D t :=
  hs.of_latched ⟨h.records, h.freeRecs, h.freeSegs, h.charge, h.chans, h.jobs, h.progress, h.session, rfl, h.aperture⟩
    (by rw [h.latched]; exact hs.latched)

theorem TableInv.latchEvent (hs : TableInv D s) {x : Side} {e : Event} (h : mayLatch x e = true) : TableInv D (latch x e s) :=
  hs.of_latched ⟨rfl, rfl, rfl, rfl, rfl, rfl, rfl, rfl, rfl, rfl⟩ (hs.latched.latch h)

/-- A HELD record's tag, lease, or (out of every copy job) length is replaced. -/
theorem TableInv.editHeld (hs : TableInv D s) {i : RecIdx} {h k : Held} (hc : (s.entry i).custody = .held h)
    (holder : k.holder = h.holder) (origin : k.origin = h.origin) (segs : k.buf.segs = h.buf.segs) (pins : k.buf.pins = h.buf.pins)
    (filling : k.buf.filling = h.buf.filling) (length : k.buf.length = h.buf.length ∨ h.buf.pins = 0 ∧ h.buf.filling = false)
    (ok : heldOk s k) : TableInv D (setHeld i k s) := by
  have at_i : ((setHeld i k s).entry i).custody = .held k := by rw [entry_setHeld_same]
  have other : ∀ j, j ≠ i → (setHeld i k s).entry j = s.entry j := fun j hj => entry_setHeld_other k s hj
  have e : EditsInPlace s (setHeld i k s) := by
    refine ⟨fun j => ?_, rfl, rfl, rfl, rfl⟩
    by_cases hj : j = i
    · rw [hj, hc, at_i]
      exact .held h k holder origin segs
    · rw [other j hj]
      exact .refl _
  refine e.tableInv_of_views hs ?_ rfl rfl rfl rfl ?_ ?_ ?_ hs.latched
  · intro j
    by_cases hj : j = i
    · rw [hj, at_i]
      exact (e.heldOk_iff k).2 ok
    · simp only [other j hj, e.heldOk_iff]
      exact hs.records j
  · intro j
    by_cases hj : j = i
    · rw [hj, fillingOf_held hc, fillingOf_held at_i, filling]
    · exact fillingOf_congr (other j hj)
  · intro j
    by_cases hj : j = i
    · rw [hj, pinsOf_held hc, pinsOf_held at_i, pins]
    · exact pinsOf_congr (other j hj)
  · rcases length with hl | ⟨hp, hf⟩
    · have len : ∀ j, lengthOf (setHeld i k s) j = lengthOf s j := fun j => by
        by_cases hj : j = i
        · rw [hj, lengthOf_held hc, lengthOf_held at_i, hl]
        · exact lengthOf_congr (other j hj)
      exact fun j _ => ⟨len _, len _⟩
    · intro j hj
      obtain ⟨hsrc, hcln⟩ := hs.unnamed (by rw [pinsOf_held hc, hp]) (by rw [fillingOf_held hc, hf]) j hj
      exact ⟨lengthOf_congr (other _ hsrc), lengthOf_congr (other _ hcln)⟩

/-- A HELD record's buffer is edited in its tag or length. -/
theorem mapBuf_held {i : RecIdx} {h : Held} (hc : (s.entry i).custody = .held h) (f : Buffer → Buffer) :
    mapBuf i f s = setHeld i { h with buf := f h.buf } s := by
  simp only [mapBuf, setHeld, hc, Custody.mapBuf]

/-- A HELD record's tag is replaced (R24). -/
theorem TableInv.setTag (hs : TableInv D s) {i : RecIdx} {h : Held} (hc : (s.entry i).custody = .held h) (tag : Half) :
    TableInv D (mapBuf i (fun b => { b with tag := tag }) s) := by
  rw [mapBuf_held hc]
  exact hs.editHeld hc rfl rfl rfl rfl rfl (Or.inl rfl) (show heldOk s h from hs.held hc)

/-- The length of a record in no copy job is replaced by one within its capacity (R139, R141, R148). -/
theorem TableInv.setLength (hs : TableInv D s) {i : RecIdx} {h : Held} (hc : (s.entry i).custody = .held h) (hp : h.buf.pins = 0)
    (hf : h.buf.filling = false) {n : Nat} (hn : n ≤ h.buf.capacity) :
    TableInv D (mapBuf i (fun b => { b with length := n }) s) := by
  rw [mapBuf_held hc]
  obtain ⟨-, hfill, horigin⟩ := hs.held hc
  exact hs.editHeld hc rfl rfl rfl rfl rfl (Or.inr ⟨hp, hf⟩) ⟨hn, hfill, horigin⟩

/-- The lease of a record with an origin is replaced by one that the origin's lease time bounds (R83, R85, R87). -/
theorem TableInv.setLease (hs : TableInv D s) {i : RecIdx} {h : Held} (hc : (s.entry i).custody = .held h) {c : ChanNo}
    (ho : h.origin = some c) {l : Lease} (h1 : 1 ≤ l.remaining) (h2 : l.remaining ≤ (s.chan c).leaseTime) :
    TableInv D (setHeld i { h with lease := some l } s) := by
  obtain ⟨holder, nofill, -⟩ := hs.held_from hc ho
  obtain ⟨hlen, hfill, -⟩ := hs.held hc
  refine hs.editHeld hc rfl rfl rfl rfl rfl (Or.inl rfl) ⟨hlen, hfill, ?_⟩
  rw [ho]
  exact ⟨holder, nofill, by rintro _ ⟨⟩; exact ⟨h1, h2⟩⟩

/-! ## A lease tick (R85) -/

theorem tickLease_range {l : Lease} {m : Nat} (h1 : 1 ≤ l.remaining) (h2 : l.remaining ≤ m) :
    1 ≤ (tickLease l).remaining ∧ (tickLease l).remaining ≤ m := by
  unfold tickLease
  dsimp only
  split <;> split <;> dsimp only <;> omega

/-- What a tick leaves of a custody: a lease may change and nothing else. -/
theorem tickEntry_custody (e : Entry) :
    (tickEntry e).custody = match e.custody with
      | .held h => .held { h with lease := h.lease.map tickLease }
      | c => c := by
  unfold tickEntry
  cases hc : e.custody <;> simp [hc]

theorem TableInv.ticked (hs : TableInv D s) : TableInv D (tickAll s) := by
  have buf : ∀ i, ((tickAll s).entry i).custody.buf? = (s.entry i).custody.buf? := fun i => by
    rw [entry_tickAll, tickEntry_custody]
    cases (s.entry i).custody <;> rfl
  have e : EditsInPlace s (tickAll s) := by
    refine ⟨fun i => ?_, rfl, rfl, rfl, rfl⟩
    rw [entry_tickAll, tickEntry_custody]
    cases (s.entry i).custody with
    | free => exact .free
    | held h => exact .held _ _ rfl rfl rfl
    | queued q => exact .refl _
  refine e.tableInv_of_views hs ?_ rfl rfl rfl rfl (fun i => by simp only [fillingOf, buf]) (fun i => by simp only [pinsOf, buf])
    (fun j _ => by simp only [lengthOf, buf, and_self]) hs.latched
  intro i
  rw [entry_tickAll, tickEntry_custody]
  cases hc : (s.entry i).custody with
  | free => trivial
  | queued q => exact hs.queued hc
  | held h =>
    refine (e.heldOk_iff _).2 ?_
    obtain ⟨hlen, hfill, horigin⟩ := hs.held hc
    refine ⟨hlen, hfill, ?_⟩
    dsimp only
    cases ho : h.origin with
    | none =>
      rw [ho] at horigin
      exact ⟨by rw [horigin.1]; rfl, horigin.2⟩
    | some c =>
      obtain ⟨holder, nofill, lease⟩ := hs.held_from hc ho
      refine ⟨holder, nofill, fun l hl => ?_⟩
      obtain ⟨l', hl', rfl⟩ := Option.map_eq_some_iff.1 hl
      exact tickLease_range (lease l' hl').1 (lease l' hl').2

/-! ## The removal of copy jobs (R105) -/

theorem length_filter_split (p q : Job → Bool) (l : List Job) :
    (l.filter q).length = (l.filter fun j => p j && q j).length + ((l.filter fun j => !p j).filter q).length := by
  induction l with
  | nil => rfl
  | cons j rest ih =>
    cases hp : p j <;> cases hq : q j <;> simp [hp, hq, ih] <;> omega

section
variable {p : Job → Bool} (hr : JobsRemoved p s t)
include hr

theorem JobsRemoved.custody (i : RecIdx) : (t.entry i).custody = (s.entry i).custody.mapBuf fun b =>
    { b with pins := b.pins - (s.jobs.filter fun j => p j && j.source == i).length } := by
  rw [hr.2.1 i]
  rfl

theorem JobsRemoved.shape (i : RecIdx) : SameShape (s.entry i).custody (t.entry i).custody := by
  rw [hr.custody]
  apply SameShape.mapBuf
  exact fun _ => rfl

theorem JobsRemoved.heldBy_eq (x : Side) (i : RecIdx) : heldBy t x i = heldBy s x i := by
  unfold heldBy
  rw [hr.custody]
  cases (s.entry i).custody <;> rfl

theorem JobsRemoved.fillingOf_eq (i : RecIdx) : fillingOf t i = fillingOf s i := by
  unfold fillingOf
  rw [hr.custody]
  cases (s.entry i).custody <;> rfl

theorem JobsRemoved.lengthOf_eq (i : RecIdx) : lengthOf t i = lengthOf s i := by
  unfold lengthOf
  rw [hr.custody]
  cases (s.entry i).custody <;> rfl

theorem JobsRemoved.pinsOf_eq (i : RecIdx) :
    pinsOf t i = pinsOf s i - (s.jobs.filter fun j => p j && j.source == i).length := by
  unfold pinsOf
  rw [hr.custody]
  cases (s.entry i).custody <;> simp [Custody.mapBuf, Custody.buf?]

/-- Unpinning leaves a record's fields as its state allows, while the channels are as they were. -/
theorem JobsRemoved.recordsInv (hc : t.chans = s.chans) (hs : RecordsInv s) : RecordsInv t := by
  intro i
  have h := hs i
  rw [hr.custody]
  cases hcu : (s.entry i).custody with
  | free => trivial
  | held k =>
    rw [hcu] at h
    obtain ⟨hlen, hfill, horigin⟩ := h
    refine (heldOk_congr (fun c => by rw [chan_eq_of_chans hc]; exact .refl _) _).2 ⟨hlen, fun hf => ?_, horigin⟩
    show k.buf.pins - _ = 0
    rw [hfill hf, Nat.zero_sub]
  | queued q =>
    rw [hcu] at h
    obtain ⟨hlen, hp, hf⟩ := h
    refine ⟨hlen, ?_, hf⟩
    show q.buf.pins - _ = 0
    rw [hp, Nat.zero_sub]

/-- The jobs left keep R99 and R100; the clones of the removed jobs are excused, unless their holder's session excuses them. -/
theorem JobsRemoved.jobsBut (hs : JobsBut D s) (attached : ∀ j ∈ s.jobs, p j = false → t.session.get j.side = .attached)
    (leaves : ∀ x, t.session.get x = .attached → s.session.get x = .attached)
    (excused : ∀ x i, heldBy s x i = true → t.session.get x = .attached → (D i ∨ ∃ j ∈ s.jobs, p j = true ∧ j.clone = i) → D' i) :
    JobsBut D' t := by
  obtain ⟨jobs, -, progress⟩ := id hr
  have mem : ∀ j, j ∈ t.jobs ↔ j ∈ s.jobs ∧ p j = false := fun j => by rw [jobs, List.mem_filter]; simp
  refine
    { few := ?_, clonesNodup := ?_, attached := fun j hj => attached j ((mem j).1 hj).1 ((mem j).1 hj).2, pins := ?_, orphan := ?_,
      progress := ?_, idle := ?_
      source := fun j hj => by rw [hr.heldBy_eq, hr.fillingOf_eq]; exact hs.source j ((mem j).1 hj).1
      clone := fun j hj => by rw [hr.heldBy_eq, hr.fillingOf_eq]; exact hs.clone j ((mem j).1 hj).1
      length := fun j hj => by rw [hr.lengthOf_eq, hr.lengthOf_eq]; exact hs.length j ((mem j).1 hj).1 }
  · rw [jobs]
    exact (List.length_filter_le _ _).trans hs.few
  · rw [jobs]
    exact hs.clonesNodup.sublist (List.filter_sublist.map _)
  · intro i
    rw [hr.pinsOf_eq, hs.pins, jobs, length_filter_split p, Nat.add_sub_cancel_left]
  · intro i x hx hf hn
    rw [hr.heldBy_eq] at hx
    rw [hr.fillingOf_eq] at hf
    by_cases ha : t.session.get x = .attached
    · refine Or.inr (excused x i hx ha ?_)
      by_cases hj : ∃ j ∈ s.jobs, j.clone = i
      · obtain ⟨j, hj, rfl⟩ := hj
        refine Or.inr ⟨j, hj, ?_, rfl⟩
        by_contra hp
        exact hn j ((mem j).2 ⟨hj, by simpa using hp⟩) rfl
      · push Not at hj
        exact Or.inl ((hs.orphan i x hx hf hj).resolve_left fun h => h (leaves x ha))
    · exact Or.inl ha
  · intro j hj
    have hold := hs.progress
    rw [jobs] at hj
    rw [progress, jobSteps, hr.lengthOf_eq]
    cases hl : s.jobs with
    | nil => simp [hl] at hj
    | cons k rest =>
      by_cases hp : p k
      · simp [hp]
      · simp only [hl, hp, Bool.not_false, List.filter_cons_of_pos, List.head?_cons, Option.some.injEq] at hj
        subst hj
        simpa [hp, jobSteps] using hold k (by rw [hl]; rfl)
  · intro h0
    rw [progress]
    cases hl : s.jobs with
    | nil => simpa using hs.idle hl
    | cons k rest =>
      rw [jobs, hl, List.filter_eq_nil_iff] at h0
      have := h0 k List.mem_cons_self
      simp at this
      simp [this]

end

theorem removeJobs_edits (p : Job → Bool) (s : State) : EditsInPlace s (removeJobs p s) := by
  refine ⟨(removeJobs_spec p s).shape, ?_, ?_, ?_, ?_⟩ <;> rw [removeJobs_eq]

/-- The removal of copy jobs keeps the table's invariants, the clones it leaves without a job being excused. -/
theorem TableInv.jobsRemoved (hs : TableInv D s) (p : Job → Bool) :
    TableInv (fun i => D i ∨ ∃ j ∈ s.jobs, p j = true ∧ j.clone = i) (removeJobs p s) := by
  have hr := removeJobs_spec p s
  have e := removeJobs_edits p s
  have only := removeJobs_tableOnly p s
  refine e.tableInv hs (hr.recordsInv e.chans hs.records)
    (hr.jobsBut hs.jobs (fun j hj _ => by rw [only.session]; exact hs.jobs.attached j hj) (by rw [only.session]; exact fun _ => id)
      fun x i _ _ h => h) ?_ (e.sessionsInv only.session hs.sessions) (e.flushInv only.session hs.flush) ?_
  · intro i hi
    rw [hr.heldBy_eq, hr.fillingOf_eq, only.session]
    rw [removeJobs_eq] at hi
    exact hs.aperture i hi
  · rw [removeJobs_eq]
    exact hs.latched

end Sys2Proof.Machine
end

section
/-! The moves: a record is taken, retired, placed on a channel, claimed, or requeued. -/

namespace Sys2Proof.Machine

variable {D D' : RecIdx → Prop} {s t : State}

/-! ## A take (R19, R31, R97) -/

theorem takeRecord_eq (i : RecIdx) (x : Side) (n len : Nat) (tag : Half) (f : Bool) (s : State) :
    takeRecord i x n len tag f s =
      { s with
        freeRecs := s.freeRecs.tail
        freeSegs := s.freeSegs.drop n
        records := s.records.set i
          { gen := (s.entry i).gen,
            custody := .held { holder := x, origin := none, lease := none, buf := newBuffer (s.freeSegs.take n) len tag f } }
        charge := s.charge.set x (s.charge.get x + n)
        latched := latchedAfterTake s (s.freeSegs.length - n) } := by
  unfold takeRecord
  rw [takeSegs_eq]
  rfl

theorem charge_set_add (p : Per Nat) (x y : Side) (n : Nat) :
    (p.set x (p.get x + n)).get y = p.get y + if x = y then n else 0 := by
  cases x <;> cases y <;> rfl

/-- A record at the head of the free list is taken for an ATTACHED side, with `n` segments that hold its length. -/
theorem takeRecord_moves (hs : TableInv D s) {i : RecIdx} {rest : List RecIdx} (hfree : s.freeRecs = i :: rest) {x : Side}
    (hx : s.session.get x = .attached) {n len : Nat} (hn : n ≤ s.freeSegs.length) (h1 : 1 ≤ n) (h32 : n ≤ 32)
    (hlen : len ≤ segBytes * n) (tag : Half) {f : Bool} (hD : ∀ j, j ≠ i → D j → D' j) (hf : f = true → D' i) :
    Moves D D' i s (takeRecord i x n len tag f s) := by
  have hi : (s.entry i).custody = .free := (hs.freeRecords.2 i).1 (hfree ▸ List.mem_cons_self)
  have nodup : (i :: rest).Nodup := hfree ▸ hs.freeRecords.1
  have latched : LatchedOk (takeRecord i x n len tag f s).latched := by
    have := LatchedOk.takeSegs (s := { s with freeRecs := s.freeRecs.tail }) hs.latched n
    exact this
  have others : ∀ j, j ≠ i → (takeRecord i x n len tag f s).entry j = s.entry j := fun j hj => by
    rw [takeRecord_eq]
    exact entry_setEntry_other s _ hj
  have at_i : ((takeRecord i x n len tag f s).entry i).custody =
      .held { holder := x, origin := none, lease := none, buf := newBuffer (s.freeSegs.take n) len tag f } := by
    rw [takeRecord, entry_setHeld_same]
  have segs : segsOf (takeRecord i x n len tag f s) i = s.freeSegs.take n := by rw [segsOf_held at_i]; rfl
  have size : (s.freeSegs.take n).length = n := List.length_take_of_le hn
  have chan : ∀ c, (takeRecord i x n len tag f s).chan c = s.chan c := chan_eq_of_chans (by rw [takeRecord_eq])
  have side : chargedSide (takeRecord i x n len tag f s) i = some x := chargedSide_held at_i
  refine
    { others := others, latched := latched
      freeRecs := ?_, segs := ?_, segCount := ?_, charge := ?_, config := ?_, tally := ?_, queues := ?_, outstanding := ?_,
      room := ?_, fields := ?_, jobs := by rw [takeRecord_eq], progress := by rw [takeRecord_eq], session := by rw [takeRecord_eq]
      unnamed := hs.unnamed (pinsOf_free hi) (fillingOf_free hi), pins := by rw [pinsOf_held at_i]; rfl
      excused := ⟨hD, fun h => hf (by rwa [fillingOf_held at_i] at h)⟩
      aperture := ?_, holder := ?_, flush := ?_ }
  · rw [at_i, takeRecord_eq, hfree]
    refine ⟨nodup.of_cons, by simpa using (List.nodup_cons.1 nodup).1, fun j hj => by simp [hj]⟩
  · intro g
    rw [segs, segsOf_free hi, takeRecord_eq]
    show (s.freeSegs.drop n).count g + _ = _
    rw [Nat.add_comm, ← List.count_append, List.take_append_drop]
    rfl
  · intro _
    rw [segs, size]
    exact ⟨h1, h32⟩
  · intro y
    have hfreeSide : chargedSide s i = none := by simp [chargedSide, hi]
    rw [chargeOn, chargeOn, side, hfreeSide, segs, size, takeRecord_eq]
    simp [charge_set_add]
  · exact fun c => by rw [chan]; exact .refl _
  · exact fun c => by rw [chan]; exact (hs.channelRanges c).2.2
  · intro c
    rw [chan, at_i, (hs.queues c).2 i, hi]
    exact ⟨(hs.queues c).1, by simp, fun _ _ => Iff.rfl⟩
  · intro c
    simp only [chan, tiedTo, at_i, hi]
    simp
  · exact fun c => Or.inl (by rw [chan])
  · rw [at_i]
    refine ⟨?_, fun _ => rfl, rfl, rfl⟩
    show len ≤ segBytes * (s.freeSegs.take n).length
    rwa [size]
  · intro j hj
    rw [takeRecord_eq] at hj
    refine ⟨?_, hj⟩
    rintro rfl
    exact absurd (hs.aperture j hj).1 (by simp [heldBy_free hi])
  · intro y hy
    rw [heldBy_held at_i] at hy
    rwa [← hy]
  · intro q hq
    rw [at_i] at hq
    cases hq

/-! ## The freeing of an entry (R21 steps 5 to 7) -/

theorem freeEntry_eq (i : RecIdx) (x : Side) (segs : List SegNo) (s : State) :
    freeEntry i x segs s =
      { s with
        charge := s.charge.set x (s.charge.get x - segs.length)
        freeSegs := s.freeSegs ++ segs
        latched := latchedAfterGive s (s.freeSegs.length + segs.length)
        records := s.records.set i { gen := (s.entry i).gen + 1, custody := .free }
        freeRecs := s.freeRecs ++ [i] } := by
  unfold freeEntry
  simp only [giveSegs_eq]
  rfl

theorem charge_set_sub (p : Per Nat) (x y : Side) {n : Nat} (h : n ≤ p.get x) :
    (p.set x (p.get x - n)).get y + (if x = y then n else 0) = p.get y := by
  cases x <;> cases y <;> simp_all [Per.get, Per.set]

/-- A live record in no copy job is freed. `u` is the state its release has left: the queues without the record, the counts without it,
and the aperture not bound to it. -/
theorem freeEntry_moves (hs : TableInv D s) {u : State} {i : RecIdx} {x : Side} {segs : List SegNo}
    (hu : u = { s with chans := u.chans, aperture := u.aperture }) (hlive : (s.entry i).custody ≠ .free)
    (hside : chargedSide s i = some x) (hsegs : segsOf s i = segs)
    (config : ∀ c, SameConfig (u.chan c) (s.chan c)) (tally : ∀ c, (u.chan c).tally ≤ 65535)
    (queues : ∀ c, (u.chan c).queue.Nodup ∧ i ∉ (u.chan c).queue ∧ ∀ j, j ≠ i → (j ∈ (u.chan c).queue ↔ j ∈ (s.chan c).queue))
    (outstanding : ∀ c, (u.chan c).outstanding + tiedTo s c i = (s.chan c).outstanding)
    (aperture : ∀ j, u.aperture = some j → j ≠ i ∧ s.aperture = some j)
    (unnamed : ∀ j ∈ s.jobs, j.source ≠ i ∧ j.clone ≠ i) (hD : ∀ j, j ≠ i → D j → D' j) :
    Moves D D' i s (freeEntry i x segs u) := by
  have ue : ∀ j, u.entry j = s.entry j := entry_eq_of_records (by rw [hu])
  have at_i : ((freeEntry i x segs u).entry i).custody = .free := by
    have : (freeEntry i x segs u).entry i = (u.setEntry i { gen := (u.entry i).gen + 1, custody := .free }).entry i := by
      rw [freeEntry_eq]; rfl
    rw [this, entry_setEntry_same]
  have others : ∀ j, j ≠ i → (freeEntry i x segs u).entry j = s.entry j := fun j hj => by
    have : (freeEntry i x segs u).entry j = (u.setEntry i { gen := (u.entry i).gen + 1, custody := .free }).entry j := by
      rw [freeEntry_eq]; rfl
    rw [this, entry_setEntry_other _ _ hj, ue]
  have chan : ∀ c, (freeEntry i x segs u).chan c = u.chan c := chan_eq_of_chans (by rw [freeEntry_eq])
  have latched : LatchedOk (freeEntry i x segs u).latched := by
    have hl : LatchedOk (subCharge x segs.length u).latched := by rw [subCharge_latched, hu]; exact hs.latched
    exact hl.giveSegs segs
  refine
    { others := others, latched := latched
      freeRecs := ?_, segs := ?_, segCount := fun h => absurd at_i h, charge := ?_
      config := fun c => by rw [chan]; exact config c
      tally := fun c => by rw [chan]; exact tally c
      queues := ?_, outstanding := ?_
      room := fun c => Or.inl (by rw [chan]; have := outstanding c; omega)
      fields := by rw [at_i]; trivial
      jobs := by rw [freeEntry_eq, hu], progress := by rw [freeEntry_eq, hu], session := by rw [freeEntry_eq, hu]
      unnamed := unnamed, pins := pinsOf_free at_i
      excused := ⟨hD, fun h => absurd h (by simp [fillingOf_free at_i])⟩
      aperture := fun j hj => aperture j (by rwa [freeEntry_eq] at hj)
      holder := fun y hy => absurd hy (by simp [heldBy_free at_i])
      flush := fun q hq => by rw [at_i] at hq; cases hq }
  · have hnot : i ∉ s.freeRecs := fun h => hlive ((hs.freeRecords.2 i).1 h)
    have hfr : (freeEntry i x segs u).freeRecs = s.freeRecs ++ [i] := by rw [freeEntry_eq, hu]
    rw [hfr, at_i]
    refine ⟨?_, by simp, fun j hj => by simp [hj]⟩
    rw [List.nodup_append]
    exact ⟨hs.freeRecords.1, List.nodup_singleton i, fun a ha b hb => by
      rw [List.mem_singleton.1 hb]; rintro rfl; exact hnot ha⟩
  · intro g
    have hfs : (freeEntry i x segs u).freeSegs = s.freeSegs ++ segs := by rw [freeEntry_eq, hu]
    rw [hfs, segsOf_free at_i, hsegs, List.count_append, List.count_nil, Nat.add_zero]
  · intro y
    have hch : (freeEntry i x segs u).charge = s.charge.set x (s.charge.get x - segs.length) := by rw [freeEntry_eq, hu]
    have hle := hs.chargeOn_le (i := i) x
    have hnone : chargedSide (freeEntry i x segs u) i = none := by simp [chargedSide, at_i]
    rw [chargeOn, hside, hsegs, if_pos rfl] at hle
    rw [hch, chargeOn, chargeOn, hside, hsegs, hnone]
    simpa using charge_set_sub s.charge x y hle
  · intro c
    obtain ⟨nodup, hi, hj⟩ := queues c
    rw [chan, at_i]
    exact ⟨nodup, by simpa using hi, hj⟩
  · intro c
    rw [chan, outstanding c]
    simp [tiedTo, at_i]

/-! ## Retirement (R21, R78) -/

theorem unbindFrom_aperture (i : RecIdx) (s : State) {j : RecIdx} (h : (unbindFrom i s).aperture = some j) :
    j ≠ i ∧ s.aperture = some j := by
  rw [unbindFrom_eq] at h
  by_cases ha : s.aperture = some i
  · simp [ha] at h
  · simp only [if_neg ha] at h
    exact ⟨fun he => ha (he ▸ h), h⟩

theorem settledBy_config (n : Nat) (ch : Channel) : SameConfig (settledBy n ch) ch := ⟨rfl, rfl, rfl, rfl, rfl, rfl⟩

theorem settledBy_tally_le (n : Nat) (ch : Channel) : (settledBy n ch).tally ≤ 65535 := Nat.min_le_left _ _

/-- A HELD record in no copy job is unbound, released and freed. -/
theorem freeHeld_moves (hs : TableInv D s) {i : RecIdx} {h : Held} (hc : (s.entry i).custody = .held h)
    (unnamed : ∀ j ∈ s.jobs, j.source ≠ i ∧ j.clone ≠ i) (hD : ∀ j, j ≠ i → D j → D' j) :
    Moves D D' i s (freeEntry i h.holder h.buf.segs (releaseOrigin h.origin (unbindFrom i s))) := by
  have chan := chan_releaseUnbound i h.origin s
  have eq := releaseUnbound_eq i h.origin s
  have queue : ∀ c, ((releaseOrigin h.origin (unbindFrom i s)).chan c).queue = (s.chan c).queue := fun c => by
    rw [chan]; split <;> rfl
  refine freeEntry_moves hs (by rw [eq]) (by rw [hc]; simp) (chargedSide_held hc) (segsOf_held hc) (fun c => ?_) (fun c => ?_)
    (fun c => ?_) (fun c => ?_) (fun j hj => unbindFrom_aperture i s ?_) unnamed hD
  · rw [chan]
    split
    · exact settledBy_config 1 _
    · exact .refl _
  · rw [chan]
    split
    · exact settledBy_tally_le 1 _
    · exact (hs.channelRanges c).2.2
  · rw [queue, (hs.queues c).2 i, hc]
    exact ⟨(hs.queues c).1, by simp, fun _ _ => Iff.rfl⟩
  · have tied := hs.tied_le (i := i) c
    rw [chan]
    simp only [tiedTo, hc] at tied ⊢
    split
    · next ho =>
      rw [if_pos ho] at tied
      exact Nat.sub_add_cancel tied
    · rfl
  · rwa [releaseOrigin_eq] at hj

/-- The retirement of a HELD record no job has as source: with its copy job, if it is a filling clone. -/
theorem TableInv.retireHeld (hs : TableInv D s) {i : RecIdx} {h : Held} (hc : (s.entry i).custody = .held h)
    (hp : h.buf.pins = 0) : TableInv (fun j => j ≠ i ∧ D j) (retirePath i s) := by
  have hsource : ∀ j ∈ s.jobs, j.source ≠ i := fun j hj he => by
    have := hs.jobs.pins i
    rw [pinsOf_held hc, hp, eq_comm, List.length_eq_zero_iff] at this
    have hm : j ∈ s.jobs.filter fun k => k.source == i := List.mem_filter.2 ⟨hj, by simpa using he⟩
    exact absurd (this ▸ hm) List.not_mem_nil
  unfold retirePath
  rw [hc]
  dsimp only
  cases hf : h.buf.filling with
  | false =>
    refine (freeHeld_moves hs hc (hs.unnamed ?_ ?_) fun j hj hd => ⟨hj, hd⟩).tableInv hs
    · rw [pinsOf_held hc, hp]
    · rw [fillingOf_held hc, hf]
  | true =>
    have hr := removeJobs_spec (fun j => j.clone == i) s
    have hcu : ((removeJobs (fun j => j.clone == i) s).entry i).custody = .held h := by
      rw [hr.custody, hc]
      simp only [Custody.mapBuf, hp, Nat.zero_sub]
      rw [← hp]
    have hs' := hs.jobsRemoved fun j => j.clone == i
    refine (freeHeld_moves hs' hcu (fun j hj => ?_) fun j hj hd => ⟨hj, ?_⟩).tableInv hs'
    · rw [hr.1, List.mem_filter] at hj
      exact ⟨hsource j hj.1, by simpa using hj.2⟩
    · refine hd.resolve_right ?_
      rintro ⟨k, -, hk, rfl⟩
      exact hj (by simpa using hk)

/-- A record leaves the queue of channel `c` and is retired (R78). -/
theorem purgeOne_moves (hs : TableInv D s) {i : RecIdx} {c : ChanNo} (hm : i ∈ (s.chan c).queue) :
    Moves D D i s (purgeOne c s i) := by
  obtain ⟨q, hc, rfl⟩ := hs.queued_of_mem hm
  obtain ⟨-, hp, hf⟩ := hs.queued hc
  have nodup := (hs.queues q.chan).1
  have hch : ∀ d, (s.setChan q.chan (settle { s.chan q.chan with queue := (s.chan q.chan).queue.erase i })).chan d =
      if d = q.chan then settledBy 1 { s.chan q.chan with queue := (s.chan q.chan).queue.erase i } else s.chan d := fun d => by
    by_cases hd : d = q.chan
    · rw [hd, chan_setChan_same, if_pos rfl, settle_eq]
    · rw [chan_setChan_other _ _ hd, if_neg hd]
  unfold purgeOne retirePath
  rw [setChan_entry, hc]
  dsimp only
  rw [hf]
  simp only [dropCloneJob, Bool.false_eq_true, if_false]
  generalize hv : s.setChan q.chan (settle { s.chan q.chan with queue := (s.chan q.chan).queue.erase i }) = v at hch ⊢
  have hvs : v = { s with chans := v.chans } := by rw [← hv]; rfl
  have chan : ∀ d, (unbindFrom i v).chan d = v.chan d := chan_eq_of_chans (by rw [unbindFrom_eq])
  have hsrc : (v.chan q.chan).source = (s.chan q.chan).source := by rw [hch, if_pos rfl]; rfl
  rw [hsrc]
  refine freeEntry_moves hs ?_ (by rw [hc]; simp) (chargedSide_queued hc) (segsOf_queued hc) (fun d => ?_) (fun d => ?_)
    (fun d => ?_) (fun d => ?_) (fun j hj => ?_) (hs.unnamed ?_ ?_) fun _ _ h => h
  · rw [unbindFrom_eq, hvs]
  · rw [chan, hch]
    split
    · next hd => subst hd; exact ⟨rfl, rfl, rfl, rfl, rfl, rfl⟩
    · exact .refl _
  · rw [chan, hch]
    split
    · exact settledBy_tally_le 1 _
    · exact (hs.channelRanges d).2.2
  · rw [chan, hch]
    split
    · next hd =>
      subst hd
      exact ⟨nodup.erase i, fun h => (nodup.mem_erase_iff.1 h).1 rfl, fun j hj => List.mem_erase_of_ne hj⟩
    · next hd =>
      refine ⟨(hs.queues d).1, fun h => hd ?_, fun _ _ => Iff.rfl⟩
      obtain ⟨r, hr, rfl⟩ := hs.queued_of_mem h
      rw [hc] at hr
      cases hr
      rfl
  · have tied := hs.tied_le (i := i) d
    rw [chan, hch]
    simp only [tiedTo, hc] at tied ⊢
    by_cases hd : d = q.chan
    · subst hd
      simp only [if_true] at tied ⊢
      exact Nat.sub_add_cancel tied
    · rw [if_neg hd, if_neg fun h => hd h.symm]
      rfl
  · obtain ⟨hne, ha⟩ := unbindFrom_aperture i v hj
    exact ⟨hne, by rwa [hvs] at ha⟩
  · rw [pinsOf_queued hc, hp]
  · rw [fillingOf_queued hc, hf]

end Sys2Proof.Machine
end

section
/-! The moves to and from a queue: a record is placed on a channel, claimed from it, or put back at its head. -/

namespace Sys2Proof.Machine

variable {D D' : RecIdx → Prop} {s t : State}

/-! ## Placement (R60, R65) -/

/-- A HELD record in no copy job is placed on an ENABLED channel its holder sources, with room left. -/
theorem placeOn_moves (hs : TableInv D s) {i : RecIdx} {h : Held} (hc : (s.entry i).custody = .held h) (hp : h.buf.pins = 0)
    (hf : h.buf.filling = false) {c : ChanNo} (he : (s.chan c).enabled = true) (hsrc : (s.chan c).source = h.holder)
    (hroom : (s.chan c).outstanding < (s.chan c).depth) (hpeer : peerAbsentOn (s.chan c) s = false) (reply : Option ChanNo) :
    Moves D D i s (placeOn i h c reply s) := by
  have ho : h.origin ≠ some c := fun ho => by
    have := (hs.held_from hc ho).1
    rw [chanDest, hsrc] at this
    exact peer_ne _ this.symm
  obtain ⟨entry, others, aperture, at_c, others_c, eq⟩ := placeOn_spec i h c reply s ho
  have only := placeOn_tableOnly i h c reply s
  generalize placeOn i h c reply s = t at *
  have at_i : (t.entry i).custody = .queued { chan := c, buf := { h.buf with reply := reply } } := by rw [entry]
  obtain ⟨hlen, -, -⟩ := hs.held hc
  have segs : segsOf t i = segsOf s i := by rw [segsOf_queued at_i, segsOf_held hc]
  have notin : ∀ d, i ∉ (s.chan d).queue := fun d hm => by
    obtain ⟨q, hq, -⟩ := hs.queued_of_mem hm
    rw [hc] at hq
    cases hq
  have config : ∀ d, SameConfig (t.chan d) (s.chan d) := fun d => by
    by_cases hd : d = c
    · rw [hd, at_c]; exact ⟨rfl, rfl, rfl, rfl, rfl, rfl⟩
    · rw [others_c d hd]; split
      · exact settledBy_config 1 _
      · exact .refl _
  have side : chargedSide t i = chargedSide s i := by
    rw [chargedSide_queued at_i, chargedSide_held hc, (config c).source, hsrc]
  refine
    { others := others
      freeRecs := ?_
      segs := fun g => by rw [segs, eq]
      segCount := fun _ => by rw [segs]; exact hs.segments.2.2 i (by rw [hc]; simp)
      charge := fun x => by rw [chargeOn, chargeOn, side, segs, eq]
      config := config, tally := ?_, queues := ?_, outstanding := ?_, room := ?_
      fields := by rw [at_i]; exact ⟨hlen, hp, hf⟩
      jobs := by rw [eq], progress := by rw [eq], session := only.session
      unnamed := hs.unnamed (by rw [pinsOf_held hc, hp]) (by rw [fillingOf_held hc, hf])
      pins := by rw [pinsOf_queued at_i]; exact hp
      excused := ⟨fun _ _ h => h, fun hfill => by rw [fillingOf_queued at_i, hf] at hfill; cases hfill⟩
      aperture := ?_
      holder := fun x hx => by rw [heldBy_queued at_i] at hx; cases hx
      flush := ?_
      latched := by rw [eq]; exact hs.latched }
  · have hfr : t.freeRecs = s.freeRecs := by rw [eq]
    rw [hfr, hs.freeRecords.2 i, at_i, hc]
    exact ⟨hs.freeRecords.1, by simp, fun _ _ => Iff.rfl⟩
  · intro d
    by_cases hd : d = c
    · rw [hd, at_c]; exact (hs.channelRanges c).2.2
    · rw [others_c d hd]; split
      · exact settledBy_tally_le 1 _
      · exact (hs.channelRanges d).2.2
  · intro d
    simp only [at_i, Custody.queued.injEq, exists_eq_left']
    by_cases hd : d = c
    · subst hd
      rw [at_c]
      refine ⟨?_, by simp, fun j hj => by simp [hj]⟩
      exact List.nodup_append.2 ⟨(hs.queues d).1, List.nodup_singleton i, fun a ha b hb => by
        rw [List.mem_singleton.1 hb]; rintro rfl; exact notin d ha⟩
    · have hq : (t.chan d).queue = (s.chan d).queue := by rw [others_c d hd]; split <;> rfl
      rw [hq]
      exact ⟨(hs.queues d).1, ⟨fun hm => absurd hm (notin d), fun hcd => absurd hcd.symm hd⟩, fun _ _ => Iff.rfl⟩
  · intro d
    have tied := hs.tied_le (i := i) d
    simp only [tiedTo, hc, at_i] at tied ⊢
    by_cases hd : d = c
    · subst hd
      rw [at_c, if_neg ho, if_pos rfl]
    · have hcd : ¬c = d := fun h => hd h.symm
      rw [others_c d hd, if_neg hcd]
      split
      · next hod =>
        rw [if_pos hod] at tied
        exact Nat.sub_add_cancel tied
      · rfl
  · intro d
    by_cases hd : d = c
    · subst hd
      rw [at_c]
      exact Or.inr ⟨he, hroom⟩
    · rw [others_c d hd]
      split
      · exact Or.inl (Nat.sub_le _ 1)
      · exact Or.inl (Nat.le_refl _)
  · intro j hj
    rw [aperture] at hj
    by_cases ha : s.aperture = some i
    · simp [ha] at hj
    · rw [if_neg ha] at hj
      exact ⟨fun hji => ha (hji ▸ hj), hj⟩
  · intro q hq hflush hdet
    rw [at_i] at hq
    cases hq
    simp [peerAbsentOn, hflush, hdet] at hpeer

/-! ## A claim (R68) -/

theorem charge_move (p : Per Nat) {x : Side} (y z : Side) (n : Nat) (hy : n ≤ p.get y) (hxy : x ≠ y) :
    ((p.set y (p.get y - n)).set x ((p.set y (p.get y - n)).get x + n)).get z + (if y = z then n else 0) =
      p.get z + if x = z then n else 0 := by
  cases x <;> cases y <;> cases z <;> simp_all [Per.get, Per.set]

/-- A record queued on a channel is claimed by the channel's destination, which is ATTACHED. -/
theorem claimRecord_moves (hs : TableInv D s) {i : RecIdx} {q : Queued} (hc : (s.entry i).custody = .queued q)
    (hx : s.session.get (chanDest (s.chan q.chan)) = .attached) :
    Moves D D i s (claimRecord (chanDest (s.chan q.chan)) q.chan i q s) := by
  obtain ⟨hlen, hp, hf⟩ := hs.queued hc
  have nodup := (hs.queues q.chan).1
  have only := claimRecord_tableOnly (chanDest (s.chan q.chan)) q.chan i q s
  have hdest : chanDest (s.chan q.chan) ≠ (s.chan q.chan).source := peer_ne _
  generalize hxd : chanDest (s.chan q.chan) = x at *
  have at_i : ((claimRecord x q.chan i q s).entry i).custody =
      .held { holder := x, origin := some q.chan, lease := grantLease (s.chan q.chan).leaseTime, buf := q.buf } := by
    unfold claimRecord moveCharge
    simp
  have others : ∀ j, j ≠ i → (claimRecord x q.chan i q s).entry j = s.entry j := fun j hj => by
    unfold claimRecord moveCharge
    simp [entry_setHeld_other _ _ hj]
  have chan_same : (claimRecord x q.chan i q s).chan q.chan =
      { s.chan q.chan with queue := (s.chan q.chan).queue.erase i } := by
    unfold claimRecord moveCharge
    simp
  have chan_other : ∀ d, d ≠ q.chan → (claimRecord x q.chan i q s).chan d = s.chan d := fun d hd => by
    unfold claimRecord moveCharge
    simp [chan_setChan_other _ _ hd]
  have config : ∀ d, SameConfig ((claimRecord x q.chan i q s).chan d) (s.chan d) := fun d => by
    by_cases hd : d = q.chan
    · rw [hd, chan_same]; exact ⟨rfl, rfl, rfl, rfl, rfl, rfl⟩
    · rw [chan_other d hd]; exact .refl _
  have out : ∀ d, ((claimRecord x q.chan i q s).chan d).outstanding = (s.chan d).outstanding ∧
      ((claimRecord x q.chan i q s).chan d).tally = (s.chan d).tally := fun d => by
    by_cases hd : d = q.chan
    · rw [hd, chan_same]; exact ⟨rfl, rfl⟩
    · rw [chan_other d hd]; exact ⟨rfl, rfl⟩
  have charge : (claimRecord x q.chan i q s).charge =
      (s.charge.set (s.chan q.chan).source (s.charge.get (s.chan q.chan).source - q.buf.segs.length)).set x
        ((s.charge.set (s.chan q.chan).source (s.charge.get (s.chan q.chan).source - q.buf.segs.length)).get x
          + q.buf.segs.length) := rfl
  have rest : (claimRecord x q.chan i q s).freeRecs = s.freeRecs ∧ (claimRecord x q.chan i q s).freeSegs = s.freeSegs ∧
      (claimRecord x q.chan i q s).jobs = s.jobs ∧ (claimRecord x q.chan i q s).progress = s.progress ∧
      (claimRecord x q.chan i q s).latched = s.latched ∧ (claimRecord x q.chan i q s).aperture = s.aperture :=
    ⟨rfl, rfl, rfl, rfl, rfl, rfl⟩
  generalize claimRecord x q.chan i q s = t at *
  obtain ⟨freeRecs, freeSegs, jobs, progress, latched, aperture⟩ := rest
  have segs : segsOf t i = segsOf s i := by rw [segsOf_held at_i, segsOf_queued hc]
  have filling : fillingOf t i = false := by rw [fillingOf_held at_i, hf]
  refine
    { others := others
      freeRecs := by
        rw [freeRecs, hs.freeRecords.2 i, at_i, hc]
        exact ⟨hs.freeRecords.1, by simp, fun _ _ => Iff.rfl⟩
      segs := fun g => by rw [segs, freeSegs]
      segCount := fun _ => by rw [segs]; exact hs.segments.2.2 i (by rw [hc]; simp)
      charge := ?_, config := config
      tally := fun d => by rw [(out d).2]; exact (hs.channelRanges d).2.2
      queues := ?_, outstanding := ?_
      room := fun d => Or.inl (by rw [(out d).1])
      fields := ?_
      jobs := jobs, progress := progress, session := only.session
      unnamed := hs.unnamed (by rw [pinsOf_queued hc, hp]) (by rw [fillingOf_queued hc, hf])
      pins := by rw [pinsOf_held at_i, hp]
      excused := ⟨fun _ _ h => h, fun h => absurd h (by simp [filling])⟩
      aperture := ?_
      holder := fun y hy => by rw [heldBy_held at_i] at hy; rwa [← hy]
      flush := fun r hr => by rw [at_i] at hr; cases hr
      latched := by rw [latched]; exact hs.latched }
  · intro y
    have hle := hs.chargeOn_le (i := i) (s.chan q.chan).source
    rw [chargeOn, chargedSide_queued hc, segsOf_queued hc, if_pos rfl] at hle
    rw [charge, chargeOn, chargeOn, chargedSide_queued hc, chargedSide_held at_i, segs, segsOf_queued hc]
    simpa only [Option.some.injEq] using charge_move s.charge _ y _ hle hdest
  · intro d
    rw [at_i]
    by_cases hd : d = q.chan
    · subst hd
      rw [chan_same]
      exact ⟨nodup.erase i, by simp [nodup.mem_erase_iff], fun j hj => List.mem_erase_of_ne hj⟩
    · rw [chan_other d hd, (hs.queues d).2 i, hc]
      refine ⟨(hs.queues d).1, ?_, fun _ _ => Iff.rfl⟩
      have hqd : ¬q.chan = d := fun h => hd h.symm
      simpa using hqd
  · intro d
    rw [(out d).1]
    simp only [tiedTo, at_i, hc, Option.some.injEq]
  · rw [at_i]
    refine (heldOk_congr config _).2 ⟨hlen, fun h => ?_, hxd.symm, hf, fun l hl => ?_⟩
    · exact hp
    · dsimp only [grantLease] at hl
      split at hl
      · cases hl
      · cases hl
        exact ⟨by dsimp only; omega, Nat.le_refl _⟩
  · intro j hj
    rw [aperture] at hj
    refine ⟨?_, hj⟩
    rintro rfl
    exact absurd (hs.aperture j hj).1 (by simp [heldBy_queued hc])

/-! ## The requeue of an expiry (R74, R89) -/

/-- A record HELD from channel `c`, in no copy job and not bound, goes back to the head of that channel's queue. -/
theorem requeue_moves (hs : TableInv D s) {i : RecIdx} {h : Held} (hc : (s.entry i).custody = .held h) {c : ChanNo}
    (ho : h.origin = some c) (unnamed : ∀ j ∈ s.jobs, j.source ≠ i ∧ j.clone ≠ i) {b : Buffer}
    (hsegs : b.segs = h.buf.segs) (hlen : b.length = h.buf.length) (hfill : b.filling = h.buf.filling) :
    Moves D D i s (moveCharge h.holder (s.chan c).source b.segs.length (requeue i c b (unbindFrom i s))) := by
  obtain ⟨holder, hf, -⟩ := hs.held_from hc ho
  obtain ⟨hcap, -, -⟩ := hs.held hc
  have ub := unbindFrom_eq i s
  have apt := fun j => unbindFrom_aperture i s (j := j)
  have hne : (s.chan c).source ≠ h.holder := by rw [holder]; exact (peer_ne _).symm
  generalize unbindFrom i s = u at *
  have ue : ∀ j, u.entry j = s.entry j := entry_eq_of_records (by rw [ub])
  have uc : ∀ d, u.chan d = s.chan d := chan_eq_of_chans (by rw [ub])
  have at_i : ((moveCharge h.holder (s.chan c).source b.segs.length (requeue i c b u)).entry i).custody =
      .queued { chan := c, buf := { b with pins := 0 } } := by
    unfold moveCharge requeue
    simp
  have others : ∀ j, j ≠ i →
      (moveCharge h.holder (s.chan c).source b.segs.length (requeue i c b u)).entry j = s.entry j := fun j hj => by
    unfold moveCharge requeue
    simp [entry_setEntry_other _ _ hj, ue]
  have chan_same : (moveCharge h.holder (s.chan c).source b.segs.length (requeue i c b u)).chan c =
      { s.chan c with queue := i :: (s.chan c).queue } := by
    unfold moveCharge requeue
    simp [uc]
  have chan_other : ∀ d, d ≠ c →
      (moveCharge h.holder (s.chan c).source b.segs.length (requeue i c b u)).chan d = s.chan d := fun d hd => by
    unfold moveCharge requeue
    simp [chan_setChan_other _ _ hd, uc]
  have charge : (moveCharge h.holder (s.chan c).source b.segs.length (requeue i c b u)).charge =
      (s.charge.set h.holder (s.charge.get h.holder - b.segs.length)).set (s.chan c).source
        ((s.charge.set h.holder (s.charge.get h.holder - b.segs.length)).get (s.chan c).source + b.segs.length) := by
    rw [ub]; rfl
  have eq : moveCharge h.holder (s.chan c).source b.segs.length (requeue i c b u) =
      { s with
        records := (moveCharge h.holder (s.chan c).source b.segs.length (requeue i c b u)).records
        chans := (moveCharge h.holder (s.chan c).source b.segs.length (requeue i c b u)).chans
        charge := (moveCharge h.holder (s.chan c).source b.segs.length (requeue i c b u)).charge
        aperture := u.aperture } := by
    rw [ub]; rfl
  generalize moveCharge h.holder (s.chan c).source b.segs.length (requeue i c b u) = t at *
  have segs : segsOf t i = segsOf s i := by rw [segsOf_queued at_i, segsOf_held hc]; exact hsegs
  have notin : ∀ d, i ∉ (s.chan d).queue := fun d hm => by
    obtain ⟨q, hq, -⟩ := hs.queued_of_mem hm
    rw [hc] at hq
    cases hq
  have config : ∀ d, SameConfig (t.chan d) (s.chan d) := fun d => by
    by_cases hd : d = c
    · rw [hd, chan_same]; exact ⟨rfl, rfl, rfl, rfl, rfl, rfl⟩
    · rw [chan_other d hd]; exact .refl _
  have out : ∀ d, (t.chan d).outstanding = (s.chan d).outstanding ∧ (t.chan d).tally = (s.chan d).tally := fun d => by
    by_cases hd : d = c
    · rw [hd, chan_same]; exact ⟨rfl, rfl⟩
    · rw [chan_other d hd]; exact ⟨rfl, rfl⟩
  refine
    { others := others
      freeRecs := by
        have hfr : t.freeRecs = s.freeRecs := by rw [eq]
        rw [hfr, hs.freeRecords.2 i, at_i, hc]
        exact ⟨hs.freeRecords.1, by simp, fun _ _ => Iff.rfl⟩
      segs := fun g => by rw [segs, eq]
      segCount := fun _ => by rw [segs]; exact hs.segments.2.2 i (by rw [hc]; simp)
      charge := ?_, config := config
      tally := fun d => by rw [(out d).2]; exact (hs.channelRanges d).2.2
      queues := ?_, outstanding := ?_
      room := fun d => Or.inl (by rw [(out d).1])
      fields := ?_
      jobs := by rw [eq], progress := by rw [eq], session := by rw [eq]
      unnamed := unnamed
      pins := pinsOf_queued at_i
      excused := ⟨fun _ _ h => h, fun hfl => by
        rw [fillingOf_queued at_i] at hfl
        exact absurd hfl (by simp [hfill, hf])⟩
      aperture := fun j hj => apt j (by rwa [eq] at hj)
      holder := fun y hy => by rw [heldBy_queued at_i] at hy; cases hy
      flush := ?_
      latched := by rw [eq]; exact hs.latched }
  · intro y
    have hle := hs.chargeOn_le (i := i) h.holder
    rw [chargeOn, chargedSide_held hc, segsOf_held hc, if_pos rfl, ← hsegs] at hle
    have hside : chargedSide t i = some (s.chan c).source := by rw [chargedSide_queued at_i, (config c).source]
    rw [charge, chargeOn, chargeOn, chargedSide_held hc, hside, segs, segsOf_held hc, ← hsegs]
    simpa only [Option.some.injEq] using charge_move s.charge _ y _ hle hne
  · intro d
    simp only [at_i, Custody.queued.injEq, exists_eq_left']
    by_cases hd : d = c
    · subst hd
      rw [chan_same]
      exact ⟨List.nodup_cons.2 ⟨notin d, (hs.queues d).1⟩, by simp, fun j hj => by simp [hj]⟩
    · rw [chan_other d hd]
      exact ⟨(hs.queues d).1, ⟨fun hm => absurd hm (notin d), fun hcd => absurd hcd.symm hd⟩, fun _ _ => Iff.rfl⟩
  · intro d
    rw [(out d).1]
    simp only [tiedTo, at_i, hc, ho, Option.some.injEq]
  · rw [at_i]
    refine ⟨?_, rfl, hfill.trans hf⟩
    show b.length ≤ segBytes * b.segs.length
    rw [hlen, hsegs]
    exact hcap
  · intro q hq hflush
    rw [at_i] at hq
    cases hq
    rw [← holder]
    exact hs.not_detached hc

end Sys2Proof.Machine
end

section
/-! The compound operations: purges, expiries, clones, completions of copies, channel configuration and sessions. -/

namespace Sys2Proof.Machine

variable {D D' : RecIdx → Prop} {s t : State}

theorem TableInv.mono (hs : TableInv D s) (h : ∀ i, D i → D' i) : TableInv D' s :=
  { hs with
    jobs := { hs.jobs with orphan := fun i x hx hf hn => (hs.jobs.orphan i x hx hf hn).imp_right (h i) } }

/-! ## Purges (R78, R125) -/

theorem retirePath_custody (i : RecIdx) (s : State) : ((retirePath i s).entry i).custody = .free := by
  have free : ∀ (x : Side) (segs : List SegNo) (u : State), ((freeEntry i x segs u).entry i).custody = .free := fun x segs u => by
    have : (freeEntry i x segs u).entry i = (u.setEntry i { gen := (u.entry i).gen + 1, custody := .free }).entry i := by
      rw [freeEntry_eq]; rfl
    rw [this, entry_setEntry_same]
  unfold retirePath
  split
  · assumption
  · exact free _ _ _
  · exact free _ _ _

/-- Channels keep their configuration, and an empty queue stays empty. -/
def OnlyDrained (s t : State) : Prop :=
  ∀ d, SameConfig (t.chan d) (s.chan d) ∧ ((s.chan d).queue = [] → (t.chan d).queue = [])

theorem OnlyDrained.refl (s : State) : OnlyDrained s s := fun _ => ⟨.refl _, id⟩

theorem SameConfig.trans {a b c : Channel} (h : SameConfig a b) (k : SameConfig b c) : SameConfig a c :=
  ⟨h.enabled.trans k.enabled, h.source.trans k.source, h.depth.trans k.depth, h.priority.trans k.priority,
    h.leaseTime.trans k.leaseTime, h.flush.trans k.flush⟩

theorem OnlyDrained.trans {u : State} (h : OnlyDrained s t) (k : OnlyDrained t u) : OnlyDrained s u := fun d =>
  ⟨(k d).1.trans (h d).1, fun hd => (k d).2 ((h d).2 hd)⟩

/-- A move that leaves the record free only drains queues. -/
theorem Moves.onlyDrained {i : RecIdx} (m : Moves D D' i s t) (hi : (t.entry i).custody = .free) : OnlyDrained s t := by
  refine fun d => ⟨m.config d, fun hd => List.eq_nil_iff_forall_not_mem.2 fun j hj => ?_⟩
  obtain ⟨-, at_i, other⟩ := m.queues d
  by_cases h : j = i
  · subst h
    obtain ⟨q, hq, -⟩ := at_i.1 hj
    rw [hi] at hq
    cases hq
  · have := (other j h).1 hj
    rw [hd] at this
    exact absurd this List.not_mem_nil

theorem purge_foldl (c : ChanNo) (l : List RecIdx) (s : State) (hs : TableInv D s) (hn : l.Nodup)
    (hl : ∀ i, i ∈ (s.chan c).queue ↔ i ∈ l) :
    TableInv D (l.foldl (purgeOne c) s) ∧ OnlyDrained s (l.foldl (purgeOne c) s) ∧
      ((l.foldl (purgeOne c) s).chan c).queue = [] := by
  induction l generalizing s with
  | nil => exact ⟨hs, .refl s, List.eq_nil_iff_forall_not_mem.2 fun i hi => absurd ((hl i).1 hi) List.not_mem_nil⟩
  | cons i rest ih =>
    have m := purgeOne_moves hs ((hl i).2 List.mem_cons_self)
    have free : ((purgeOne c s i).entry i).custody = .free := retirePath_custody i _
    obtain ⟨-, at_i, other⟩ := m.queues c
    obtain ⟨table, drained, empty⟩ := ih (purgeOne c s i) (m.tableInv hs) hn.of_cons fun j => by
      by_cases h : j = i
      · subst h
        rw [at_i, free]
        simpa using (List.nodup_cons.1 hn).1
      · rw [other j h, hl j, List.mem_cons, or_iff_right h]
    exact ⟨table, (m.onlyDrained free).trans drained, empty⟩

/-- A purge keeps the table's invariants and leaves the channel's queue empty. -/
theorem TableInv.purged (hs : TableInv D s) (c : ChanNo) :
    TableInv D (purgeQueue c s) ∧ OnlyDrained s (purgeQueue c s) ∧ ((purgeQueue c s).chan c).queue = [] :=
  purge_foldl c _ s hs (hs.queues c).1 fun _ => Iff.rfl

/-- The flush purge keeps the table's invariants and leaves the queue of each flush-on-detach channel destined for `x` empty. -/
theorem TableInv.flushPurged (hs : TableInv D s) (x : Side) :
    TableInv D (flushPurge x s) ∧ OnlyDrained s (flushPurge x s) ∧
      ∀ c, (s.chan c).flush = true → chanDest (s.chan c) = x → ((flushPurge x s).chan c).queue = [] := by
  have fold : ∀ (l : List ChanNo) (u : State), TableInv D u →
      TableInv D (l.foldl (fun t c => if (t.chan c).flush && chanDest (t.chan c) == x then purgeQueue c t else t) u) ∧
      OnlyDrained u (l.foldl (fun t c => if (t.chan c).flush && chanDest (t.chan c) == x then purgeQueue c t else t) u) ∧
      ∀ c ∈ l, (u.chan c).flush = true → chanDest (u.chan c) = x →
        ((l.foldl (fun t c => if (t.chan c).flush && chanDest (t.chan c) == x then purgeQueue c t else t) u).chan c).queue = [] := by
    intro l
    induction l with
    | nil => exact fun u hu => ⟨hu, .refl u, fun _ h => absurd h List.not_mem_nil⟩
    | cons d rest ih =>
      intro u hu
      rw [List.foldl_cons]
      have one : TableInv D (if (u.chan d).flush && chanDest (u.chan d) == x then purgeQueue d u else u) ∧
          OnlyDrained u (if (u.chan d).flush && chanDest (u.chan d) == x then purgeQueue d u else u) ∧
          ((u.chan d).flush = true → chanDest (u.chan d) = x →
            ((if (u.chan d).flush && chanDest (u.chan d) == x then purgeQueue d u else u).chan d).queue = []) := by
        split
        · exact ⟨(hu.purged d).1, (hu.purged d).2.1, fun _ _ => (hu.purged d).2.2⟩
        · next h => exact ⟨hu, .refl u, fun hf hd => absurd (by simp [hf, hd]) h⟩
      generalize (if (u.chan d).flush && chanDest (u.chan d) == x then purgeQueue d u else u) = v at one ⊢
      obtain ⟨hv, drained, empty⟩ := one
      obtain ⟨table, drained', empty'⟩ := ih v hv
      refine ⟨table, drained.trans drained', fun c hc hf hd => ?_⟩
      by_cases h : c = d
      · subst h
        exact (drained' c).2 (empty hf hd)
      · obtain ⟨cfg, -⟩ := drained c
        exact empty' c ((List.mem_cons.1 hc).resolve_left h) (by rw [cfg.flush, hf]) (by rw [cfg.dest, hd])
  obtain ⟨table, drained, empty⟩ := fold (List.finRange 12) s hs
  exact ⟨table, drained, fun c => empty c (List.mem_finRange c)⟩

/-! ## Expiry (R89, R107) -/

/-- The custody is HELD with the fields `h`, the pin count aside. -/
def HeldUpToPins (h : Held) (c : Custody) : Prop := ∃ p, c = .held { h with buf := { h.buf with pins := p } }

theorem HeldUpToPins.unpinned {h : Held} {e : Entry} (hc : HeldUpToPins h e.custody) (n : Nat) :
    HeldUpToPins h (unpinnedBy n e).custody := by
  obtain ⟨p, hp⟩ := hc
  exact ⟨p - n, by rw [unpinnedBy, hp]; rfl⟩

/-- The retirement of the clones of removed jobs, one after the other: their excuses end, and record `i`, no clone, is unpinned at most. -/
theorem retireClones_foldl {i : RecIdx} {h : Held} (l : List Job) (s : State) (hs : TableInv (fun k => k ∈ l.map Job.clone) s)
    (hn : (l.map Job.clone).Nodup)
    (hl : ∀ j ∈ l, j.clone ≠ i ∧ ∃ k, (s.entry j.clone).custody = .held k ∧ k.buf.filling = true)
    (hsource : ∀ j ∈ s.jobs, j.source ≠ i) (hi : HeldUpToPins h (s.entry i).custody) :
    TableInv.Full (l.foldl (fun t j => retirePath j.clone t) s) ∧
      (∀ j ∈ (l.foldl (fun t j => retirePath j.clone t) s).jobs, j.source ≠ i) ∧
      HeldUpToPins h ((l.foldl (fun t j => retirePath j.clone t) s).entry i).custody := by
  induction l generalizing s with
  | nil => exact ⟨hs.mono fun _ => List.not_mem_nil, hsource, hi⟩
  | cons j rest ih =>
    rw [List.foldl_cons]
    obtain ⟨hji, k, hk, hfill⟩ := hl j List.mem_cons_self
    rw [List.map_cons, List.nodup_cons] at hn
    have hr := retirePath_held j.clone k s hk
    obtain ⟨jobs, -, -, -, -, -, -, others, -⟩ := hr
    refine ih _ ((hs.retireHeld hk (hs.filling hk hfill).1).mono ?_) hn.2 ?_ ?_ ?_
    · rintro m ⟨hne, hm⟩
      exact (List.mem_cons.1 hm).resolve_left hne
    · intro m hm
      obtain ⟨hmi, r, hr, hrf⟩ := hl m (List.mem_cons_of_mem _ hm)
      have hne : m.clone ≠ j.clone := fun he => hn.1 (he ▸ List.mem_map_of_mem hm)
      have hrp : HeldUpToPins r (s.entry m.clone).custody := ⟨r.buf.pins, hr⟩
      obtain ⟨p, hp⟩ := hrp.unpinned (s.jobs.filter fun a => (k.buf.filling && a.clone == j.clone) && a.source == m.clone).length
      exact ⟨hmi, _, (congrArg Entry.custody (others _ hne)).trans hp, hrf⟩
    · intro m hm
      rw [jobs] at hm
      exact hsource m (List.mem_filter.1 hm).1
    · rw [others i hji.symm]
      exact hi.unpinned _

/-- Step 1 of an expiry: the jobs the record is the source of are gone with their clones, and the record is HELD as before, unpinned. -/
theorem TableInv.copiesAborted (hs : TableInv.Full s) {i : RecIdx} {h : Held} (hc : (s.entry i).custody = .held h)
    (hf : h.buf.filling = false) :
    TableInv.Full (abortCopies i s) ∧ (∀ j ∈ (abortCopies i s).jobs, j.source ≠ i) ∧
      HeldUpToPins h ((abortCopies i s).entry i).custody := by
  have hr := removeJobs_spec (fun j => j.source == i) s
  have gone : ∀ j ∈ s.jobs.filter fun j => j.source == i, j ∈ s.jobs := fun j hj => (List.mem_filter.1 hj).1
  unfold abortCopies
  refine retireClones_foldl _ _ ((hs.jobsRemoved fun j => j.source == i).mono fun k hk => ?_)
    (hs.jobs.clonesNodup.sublist (List.filter_sublist.map _)) (fun j hj => ?_) (fun j hj => ?_) ?_
  · obtain ⟨j, hj, hji, rfl⟩ := hk.resolve_left id
    exact List.mem_map_of_mem (List.mem_filter.2 ⟨hj, hji⟩)
  · obtain ⟨hheld, hfill⟩ := hs.jobs.clone j (gone j hj)
    refine ⟨?_, ?_⟩
    · intro he
      rw [he, fillingOf_held hc, hf] at hfill
      cases hfill
    · obtain ⟨k, hk, -⟩ := heldBy_iff.1 hheld
      rw [fillingOf_held hk] at hfill
      have hkp : HeldUpToPins k (s.entry j.clone).custody := ⟨k.buf.pins, hk⟩
      obtain ⟨p, hp⟩ := hkp.unpinned (s.jobs.filter fun a => a.source == i && a.source == j.clone).length
      exact ⟨_, (congrArg Entry.custody (hr.2.1 _)).trans hp, hfill⟩
  · rw [hr.1, List.mem_filter] at hj
    simpa using hj.2
  · rw [hr.2.1]
    exact HeldUpToPins.unpinned ⟨h.buf.pins, hc⟩ _

theorem TableInv.expired (hs : TableInv.Full s) {i : RecIdx} {h : Held} (hc : (s.entry i).custody = .held h) {c : ChanNo}
    (ho : h.origin = some c) : TableInv.Full (expire i h c s) := by
  obtain ⟨-, hf, -⟩ := hs.held_from hc ho
  obtain ⟨hv, hsource, p, hp⟩ := hs.copiesAborted hc hf
  unfold expire
  dsimp only
  generalize abortCopies i s = v at hv hsource hp ⊢
  have hfv : fillingOf v i = false := by rw [fillingOf_held hp]; exact hf
  have unnamed : ∀ j ∈ v.jobs, j.source ≠ i ∧ j.clone ≠ i := fun j hj =>
    ⟨hsource j hj, fun he => by have := (hv.jobs.clone j hj).2; rw [he, hfv] at this; cases this⟩
  have hch : (unbindFrom i v).chan c = v.chan c := chan_eq_of_chans (by rw [unbindFrom_eq]) c
  have m := requeue_moves (c := c) (b := h.buf) hv hp ho unnamed rfl rfl rfl
  rw [hch]
  have hu := m.tableInv hv
  dsimp only at hu
  split
  · exact (hu.latchEvent rfl).latchEvent rfl
  · exact hu.latchEvent rfl

/-! ## Clones and the completion of a copy (R97, R104) -/

theorem cloneSegs_bounds {len cap : Nat} (h : len ≤ segBytes * cap) (hcap : cap ≤ 32) :
    1 ≤ cloneSegs len ∧ cloneSegs len ≤ 32 ∧ len ≤ segBytes * cloneSegs len := by
  unfold cloneSegs segsFor segBytes at *
  omega

/-- A job joins the copy queue: its source is pinned once more, and its clone is no longer excused. -/
theorem JobsBut.append {n : Job} (hs : JobsBut (fun k => k = n.clone) s) (jobs : t.jobs = s.jobs ++ [n])
    (session : t.session = s.session) (held : ∀ x i, heldBy t x i = heldBy s x i) (filling : ∀ i, fillingOf t i = fillingOf s i)
    (length : ∀ i, lengthOf t i = lengthOf s i) (pins : ∀ i, pinsOf t i = pinsOf s i + if n.source = i then 1 else 0)
    (progress : t.progress = if s.jobs.isEmpty then 0 else s.progress) (few : s.jobs.length < 4)
    (fresh : ∀ j ∈ s.jobs, j.clone ≠ n.clone) (source : heldBy s n.side n.source = true ∧ fillingOf s n.source = false)
    (clone : heldBy s n.side n.clone = true ∧ fillingOf s n.clone = true) (attached : s.session.get n.side = .attached)
    (same : lengthOf s n.clone = lengthOf s n.source) : JobsBut (fun _ => False) t := by
  have mem : ∀ j ∈ t.jobs, j ∈ s.jobs ∨ j = n := fun j hj => by
    rwa [jobs, List.mem_append, List.mem_singleton] at hj
  refine
    { few := by rw [jobs, List.length_append]; exact few
      clonesNodup := ?_, source := ?_, clone := ?_, attached := ?_, length := ?_, pins := ?_, orphan := ?_, progress := ?_
      idle := fun h0 => by rw [jobs] at h0; simp at h0 }
  · rw [jobs, List.map_append]
    refine List.nodup_append.2 ⟨hs.clonesNodup, List.nodup_singleton _, fun a ha b hb => ?_⟩
    obtain ⟨j, hj, rfl⟩ := List.mem_map.1 ha
    rw [List.mem_singleton.1 hb]
    exact fresh j hj
  · intro j hj
    rw [held, filling]
    rcases mem j hj with hj | rfl
    · exact hs.source j hj
    · exact source
  · intro j hj
    rw [held, filling]
    rcases mem j hj with hj | rfl
    · exact hs.clone j hj
    · exact clone
  · intro j hj
    rw [session]
    rcases mem j hj with hj | rfl
    · exact hs.attached j hj
    · exact attached
  · intro j hj
    rw [length, length]
    rcases mem j hj with hj | rfl
    · exact hs.length j hj
    · exact same
  · intro k
    rw [jobs, List.filter_append, List.length_append, pins, hs.pins]
    by_cases hk : n.source = k <;> simp [hk]
  · intro k y hy hfill hnone
    rw [held] at hy
    rw [filling] at hfill
    rw [session]
    simp only [jobs, List.forall_mem_append, List.forall_mem_singleton] at hnone
    exact (hs.orphan k y hy hfill hnone.1).imp_right fun hkc => hnone.2 hkc.symm
  · intro j hj
    rw [progress, jobSteps, length]
    rw [jobs] at hj
    cases hl : s.jobs with
    | nil => exact Nat.zero_le _
    | cons k rest =>
      have hkj : k = j := by simpa [hl] using hj
      exact hs.progress j (by rw [hl, hkj]; rfl)

/-- A record pinned once more keeps its shape and every view but the pin count; the copy queue may change with it. -/
theorem pinned_views {i : RecIdx} {h : Held} (hc : (s.entry i).custody = .held h)
    (at_i : (t.entry i).custody = .held { h with buf := { h.buf with pins := h.buf.pins + 1 } })
    (others : ∀ k, k ≠ i → t.entry k = s.entry k) (k : RecIdx) :
    SameShape (s.entry k).custody (t.entry k).custody ∧ fillingOf t k = fillingOf s k ∧ lengthOf t k = lengthOf s k ∧
      pinsOf t k = pinsOf s k + if i = k then 1 else 0 := by
  by_cases hk : k = i
  · subst hk
    rw [fillingOf_held at_i, fillingOf_held hc, lengthOf_held at_i, lengthOf_held hc, pinsOf_held at_i, pinsOf_held hc, at_i, hc,
      if_pos rfl]
    exact ⟨.held _ _ rfl rfl rfl, rfl, rfl, rfl⟩
  · have hne : ¬i = k := fun h => hk h.symm
    have hek := others k hk
    rw [fillingOf_congr hek, lengthOf_congr hek, pinsOf_congr hek, hek, if_neg hne]
    exact ⟨.refl _, rfl, rfl, rfl⟩

/-- An accepted CLONE keeps the table's invariants. -/
theorem TableInv.cloned (hs : TableInv.Full s) {i c : RecIdx} {h : Held} {rest : List RecIdx} {x : Side}
    (hx : s.session.get x = .attached) (hc : (s.entry i).custody = .held h) (hholder : h.holder = x)
    (hf : h.buf.filling = false) (hfew : s.jobs.length < 4) (hfree : s.freeRecs = c :: rest)
    (hn : cloneSegs h.buf.length ≤ s.freeSegs.length) : TableInv.Full (makeClone x i c h.buf s) := by
  have hcfree : (s.entry c).custody = .free := (hs.freeRecords.2 c).1 (hfree ▸ List.mem_cons_self)
  have hic : i ≠ c := by rintro rfl; rw [hc] at hcfree; cases hcfree
  have hlen : h.buf.length ≤ segBytes * h.buf.segs.length := (hs.held hc).1
  have hcap : h.buf.segs.length ≤ 32 := by
    have := (hs.segments.2.2 i (by rw [hc]; simp)).2
    rwa [segsOf_held hc] at this
  obtain ⟨h1, h32, hfits⟩ := cloneSegs_bounds hlen hcap
  have m := takeRecord_moves (D' := fun k => k = c) (f := true) hs hfree hx hn h1 h32 hfits h.buf.tag
    (fun _ _ h => h.elim) fun _ => rfl
  have hu := m.tableInv hs
  have at_c : ((takeRecord c x (cloneSegs h.buf.length) h.buf.length h.buf.tag true s).entry c).custody = .held
      { holder := x, origin := none, lease := none,
        buf := newBuffer (s.freeSegs.take (cloneSegs h.buf.length)) h.buf.length h.buf.tag true } := by
    rw [takeRecord, entry_setHeld_same]
  unfold makeClone
  dsimp only
  generalize takeRecord c x (cloneSegs h.buf.length) h.buf.length h.buf.tag true s = u at m hu at_c ⊢
  have at_i : (u.entry i).custody = .held h := by rw [m.others i hic, hc]
  have ujobs := m.jobs
  have uprogress := m.progress
  rw [mapBuf_held at_i]
  generalize hv : ({ setHeld i { h with buf := { h.buf with pins := h.buf.pins + 1 } } u with
    jobs := (setHeld i { h with buf := { h.buf with pins := h.buf.pins + 1 } } u).jobs ++ [{ source := i, clone := c, side := x }]
    progress := if s.jobs.isEmpty then 0 else s.progress } : State) = v
  have vi : (v.entry i).custody = .held { h with buf := { h.buf with pins := h.buf.pins + 1 } } := by
    rw [← hv]
    exact congrArg Entry.custody (entry_setHeld_same i _ u)
  have vo : ∀ k, k ≠ i → v.entry k = u.entry k := fun k hk => by
    rw [← hv]
    exact entry_setHeld_other _ u hk
  have views := pinned_views at_i vi vo
  have e : EditsInPlace u v := ⟨fun k => (views k).1, by rw [← hv]; rfl, by rw [← hv]; rfl, by rw [← hv]; rfl, by rw [← hv]; rfl⟩
  have session : v.session = u.session := by rw [← hv]; rfl
  have filling : ∀ k, fillingOf v k = fillingOf u k := fun k => (views k).2.1
  refine e.tableInv hu ?_ ?_ ?_ (e.sessionsInv session hu.sessions) (e.flushInv session hu.flush) (by rw [← hv]; exact hu.latched)
  · intro k
    by_cases hk : k = i
    · rw [hk, vi]
      obtain ⟨hl, -, horigin⟩ := hu.held at_i
      refine (e.heldOk_iff _).2 ⟨hl, fun hfill => ?_, horigin⟩
      exact absurd hfill (by simp [hf])
    · simp only [vo k hk, e.heldOk_iff]
      exact hu.records k
  · refine JobsBut.append (n := { source := i, clone := c, side := x }) hu.jobs (by rw [← hv]; rfl) session e.heldBy_eq filling
      (fun k => (views k).2.2.1) (fun k => (views k).2.2.2) (by rw [← hv, ujobs, uprogress]) (by rwa [ujobs])
      (by rw [ujobs]; exact fun j hj => (m.unnamed j hj).2) ⟨(heldBy_held at_i _).2 hholder, by rw [fillingOf_held at_i, hf]⟩
      ⟨(heldBy_held at_c _).2 rfl, by rw [fillingOf_held at_c]; rfl⟩ (by rw [m.session]; exact hx)
      (by rw [lengthOf_held at_c, lengthOf_held at_i]; rfl)
  · intro k hk
    rw [e.heldBy_eq, filling, session]
    exact hu.aperture k (by rwa [← hv] at hk)

/-! ### The completion of the active job -/

/-- The buffer of record `k` once job `j` has completed: the clone is no longer filling, the source is unpinned by one (R104). -/
def completedBuffer (j : Job) (k : RecIdx) (b : Buffer) : Buffer :=
  { b with filling := b.filling && decide (k ≠ j.clone), pins := if k = j.source then b.pins - 1 else b.pins }

theorem completed_custody (j : Job) (s : State) (k : RecIdx) :
    ((unpin j.source (mapBuf j.clone (fun b => { b with filling := false }) s)).entry k).custody =
      (s.entry k).custody.mapBuf (completedBuffer j k) := by
  have inner : ((mapBuf j.clone (fun b => { b with filling := false }) s).entry k).custody =
      (s.entry k).custody.mapBuf fun b => { b with filling := b.filling && decide (k ≠ j.clone) } := by
    by_cases hk : k = j.clone
    · subst hk
      simp
    · rw [entry_mapBuf_other _ _ hk]
      simp [hk, mapBuf_id]
  rw [entry_unpin, unpinnedBy, inner, mapBuf_mapBuf]
  unfold completedBuffer
  by_cases hk : k = j.source
  · simp [hk]
  · have hne : ¬j.source = k := fun h => hk h.symm
    simp [hk, hne]

section
variable {j : Job} (entry : ∀ k, (t.entry k).custody = (s.entry k).custody.mapBuf (completedBuffer j k))
include entry

theorem completed_shape (k : RecIdx) : SameShape (s.entry k).custody (t.entry k).custody := by
  rw [entry]
  apply SameShape.mapBuf
  exact fun _ => rfl

theorem completed_filling (k : RecIdx) : fillingOf t k = (fillingOf s k && decide (k ≠ j.clone)) := by
  unfold fillingOf
  rw [entry]
  cases (s.entry k).custody <;> rfl

theorem completed_length (k : RecIdx) : lengthOf t k = lengthOf s k := by
  unfold lengthOf
  rw [entry]
  cases (s.entry k).custody <;> rfl

theorem completed_pins (k : RecIdx) : pinsOf t k = if k = j.source then pinsOf s k - 1 else pinsOf s k := by
  unfold pinsOf
  rw [entry]
  cases (s.entry k).custody <;> simp [Custody.mapBuf, Custody.buf?, completedBuffer]

theorem completed_records (hs : TableInv D s) (e : EditsInPlace s t) : RecordsInv t := by
  intro k
  rw [entry]
  cases hc : (s.entry k).custody with
  | free => trivial
  | held h =>
    obtain ⟨hl, hfill, horigin⟩ := hs.held hc
    refine (e.heldOk_iff _).2 ⟨hl, fun hf => ?_, ?_⟩
    · have hp := hfill (Bool.and_elim_left hf)
      show (if k = j.source then h.buf.pins - 1 else h.buf.pins) = 0
      rw [hp, Nat.zero_sub, ite_self]
    · dsimp only
      cases ho : h.origin with
      | none => rwa [ho] at horigin
      | some c =>
        obtain ⟨holder, hf, lease⟩ := hs.held_from hc ho
        exact ⟨holder, by simp [completedBuffer, hf], lease⟩
  | queued q =>
    obtain ⟨hl, hp, hf⟩ := hs.queued hc
    exact ⟨hl, by simp [completedBuffer, hp], by simp [completedBuffer, hf]⟩

theorem completed_jobs (hs : JobsBut D s) (e : EditsInPlace s t) {rest : List Job} (hjobs : s.jobs = j :: rest)
    (jobs : t.jobs = rest) (progress : t.progress = 0) (session : t.session = s.session) : JobsBut D t := by
  have mem : ∀ k ∈ rest, k ∈ s.jobs := fun k hk => hjobs ▸ List.mem_cons_of_mem j hk
  have nodup := hs.clonesNodup
  rw [hjobs, List.map_cons, List.nodup_cons] at nodup
  have other : ∀ k ∈ rest, k.clone ≠ j.clone := fun k hk he => nodup.1 (he ▸ List.mem_map_of_mem hk)
  have filling := completed_filling entry
  refine
    { few := ?_, clonesNodup := by rw [jobs]; exact nodup.2, source := ?_, clone := ?_, attached := ?_, length := ?_
      pins := ?_, orphan := ?_, progress := fun k _ => by rw [progress]; exact Nat.zero_le _, idle := fun _ => progress }
  · have := hs.few
    rw [hjobs, List.length_cons] at this
    rw [jobs]
    omega
  · rw [jobs]
    intro k hk
    obtain ⟨hheld, hf⟩ := hs.source k (mem k hk)
    exact ⟨by rwa [e.heldBy_eq], by rw [filling, hf]; rfl⟩
  · rw [jobs]
    intro k hk
    obtain ⟨hheld, hf⟩ := hs.clone k (mem k hk)
    exact ⟨by rwa [e.heldBy_eq], by rw [filling, hf]; simpa using other k hk⟩
  · rw [jobs, session]
    exact fun k hk => hs.attached k (mem k hk)
  · rw [jobs]
    intro k hk
    rw [completed_length entry, completed_length entry]
    exact hs.length k (mem k hk)
  · intro k
    have := hs.pins k
    rw [hjobs] at this
    rw [jobs, completed_pins entry, this]
    by_cases hk : k = j.source
    · simp [hk]
    · have hne : ¬j.source = k := fun h => hk h.symm
      simp [hk, hne]
  · intro k y hy hfill hnone
    rw [e.heldBy_eq] at hy
    rw [filling, Bool.and_eq_true, decide_eq_true_iff] at hfill
    rw [jobs] at hnone
    rw [session]
    refine hs.orphan k y hy hfill.1 ?_
    rw [hjobs]
    exact List.forall_mem_cons.2 ⟨hfill.2.symm, hnone⟩

end

/-- The completion of the active job keeps the table's invariants. -/
theorem TableInv.completed (hs : TableInv D s) : TableInv D (copyCompletion s) := by
  unfold copyCompletion
  split
  · exact hs
  next j rest hjobs =>
  split
  · have entry := completed_custody j s
    have e : EditsInPlace s { unpin j.source (mapBuf j.clone (fun b => { b with filling := false }) s) with
        jobs := rest, progress := 0 } := ⟨completed_shape entry, rfl, rfl, rfl, rfl⟩
    refine (e.tableInv hs (completed_records entry hs e) (completed_jobs entry hs.jobs e hjobs rfl rfl rfl) ?_
      (e.sessionsInv rfl hs.sessions) (e.flushInv rfl hs.flush) hs.latched).latchEvent (by cases j.side <;> rfl)
    intro k hk
    obtain ⟨hheld, hf, hses⟩ := hs.aperture k hk
    exact ⟨by rwa [e.heldBy_eq], (completed_filling entry k).trans (by rw [hf]; rfl), hses⟩
  · exact hs

end Sys2Proof.Machine
end

section
/-! Channel configuration, and the sessions: what each change keeps. -/

namespace Sys2Proof.Machine

variable {D D' : RecIdx → Prop} {s t : State}

/-! ## A channel's configuration (R51 to R54, R75) -/

/-- A channel is configured anew: its queue and outstanding count stay, and its source, lease time and flush flag change only while nothing
is tied to it. -/
theorem TableInv.editChan (hs : TableInv D s) {c : ChanNo} {ch : Channel} (queue : ch.queue = (s.chan c).queue)
    (out : ch.outstanding = (s.chan c).outstanding)
    (room : ch.outstanding ≤ ch.depth ∧ ch.depth ≤ 32 ∧ (ch.enabled = false → ch.outstanding = 0) ∧ (ch.enabled = true → 1 ≤ ch.depth))
    (ranges : ch.priority ≤ 3 ∧ ch.leaseTime ≤ 4095 ∧ ch.tally ≤ 65535)
    (serves : (s.chan c).outstanding = 0 ∨
      ch.source = (s.chan c).source ∧ ch.leaseTime = (s.chan c).leaseTime ∧ ch.flush = (s.chan c).flush) :
    TableInv D (s.setChan c ch) := by
  have queues : ∀ d, ((s.setChan c ch).chan d).queue = (s.chan d).queue := fun d => by
    by_cases hd : d = c
    · rw [hd, chan_setChan_same, queue]
    · rw [chan_setChan_other _ _ hd]
  have untied : ∀ i d, tiedTo s d i ≠ 0 → ((s.setChan c ch).chan d).source = (s.chan d).source ∧
      ((s.setChan c ch).chan d).leaseTime = (s.chan d).leaseTime := fun i d hi => by
    by_cases hd : d = c
    · subst hd
      rw [chan_setChan_same]
      rcases serves with h0 | ⟨hsrc, hlease, -⟩
      · exact absurd ((hs.idle_channel h0).2 i) hi
      · exact ⟨hsrc, hlease⟩
    · rw [chan_setChan_other _ _ hd]
      exact ⟨rfl, rfl⟩
  have queuesInv : QueuesInv (s.setChan c ch) := fun d => by
    rw [queues]
    exact hs.queues d
  refine
    { freeRecords := hs.freeRecords, segments := hs.segments, charges := ?_, queues := queuesInv, outstanding := ?_, channelRanges := ?_
      records := ?_
      jobs := hs.jobs.congr rfl rfl rfl (fun _ _ => rfl) (fun _ => rfl) (fun _ => rfl) fun _ _ => ⟨rfl, rfl⟩
      aperture := hs.aperture, sessions := hs.sessions, flush := ?_, latched := hs.latched }
  · intro x
    show s.charge.get x = _
    rw [hs.charges x, chargedSegs_eq, chargedSegs_eq]
    refine Finset.sum_congr rfl fun i _ => ?_
    have side : chargedSide (s.setChan c ch) i = chargedSide s i := by
      unfold chargedSide
      rw [setChan_entry]
      cases hc : (s.entry i).custody with
      | free => rfl
      | held h => rfl
      | queued q =>
        dsimp only
        rw [(untied i q.chan (by simp [tiedTo, hc])).1]
    unfold chargeOn
    rw [side]
    rfl
  · intro d
    by_cases hd : d = c
    · rw [hd, chan_setChan_same, out, queue]
      rw [out] at room
      exact ⟨(hs.outstanding c).1, room⟩
    · rw [chan_setChan_other _ _ hd]
      exact hs.outstanding d
  · intro d
    by_cases hd : d = c
    · rw [hd, chan_setChan_same]
      exact ranges
    · rw [chan_setChan_other _ _ hd]
      exact hs.channelRanges d
  · intro i
    rw [setChan_entry]
    cases hc : (s.entry i).custody with
    | free => trivial
    | queued q => exact hs.queued hc
    | held h =>
      obtain ⟨hlen, hfill, horigin⟩ := hs.held hc
      refine ⟨hlen, hfill, ?_⟩
      cases ho : h.origin with
      | none => rwa [ho] at horigin
      | some d =>
        obtain ⟨hsrc, hlease⟩ := untied i d (by simp [tiedTo, hc, ho])
        dsimp only
        rw [chanDest, hsrc, hlease]
        exact hs.held_from hc ho
  · intro d
    rw [queues]
    by_cases hd : d = c
    · subst hd
      rw [chan_setChan_same]
      rcases serves with h0 | ⟨hsrc, -, hflush⟩
      · exact fun _ _ => (hs.idle_channel h0).1
      · rw [chanDest, hsrc, hflush]
        exact hs.flush d
    · rw [chan_setChan_other _ _ hd]
      exact hs.flush d

/-! ## Sessions (R115, R121, R122, R126) -/

/-- The start of a sweep keeps the table's invariants: the side's copy jobs and LOCAL's binding go with its session. -/
theorem TableInv.sweepStarted (hs : TableInv D s) {x : Side} (h : SweepStarted x s t) : TableInv D t := by
  obtain ⟨session, -, hr, aperture, eq⟩ := h
  have e : EditsInPlace s t := ⟨hr.shape, by rw [eq], by rw [eq], by rw [eq], by rw [eq]⟩
  have other : ∀ y, y ≠ x → t.session.get y = s.session.get y := fun y hy => by rw [session, Per.get_set, if_neg hy]
  have own : t.session.get x = .sweeping (.next 0) := by rw [session, Per.get_set_same]
  have notx : ∀ y, t.session.get y = .attached → y ≠ x := fun y hy he => by rw [he, own] at hy; cases hy
  refine e.tableInv hs (hr.recordsInv e.chans hs.records) (hr.jobsBut hs.jobs (fun j hj hp => ?_) (fun y hy => ?_)
    fun y i hy ha hD => ?_) ?_ ?_ ?_ (by rw [eq]; exact hs.latched)
  · rw [other _ (by simpa using hp)]
    exact hs.jobs.attached j hj
  · rwa [← other y (notx y hy)]
  · refine hD.resolve_right ?_
    rintro ⟨j, hj, hp, rfl⟩
    obtain ⟨k, hk, rfl⟩ := heldBy_iff.1 hy
    have := (heldBy_held hk _).1 (hs.jobs.clone j hj).1
    exact notx _ ha (this.trans (by simpa using hp))
  · intro i hi
    rw [aperture] at hi
    by_cases hx : x = .loc
    · rw [if_pos hx] at hi
      cases hi
    · rw [if_neg hx] at hi
      obtain ⟨hheld, hfill, hses⟩ := hs.aperture i hi
      rw [hr.heldBy_eq, hr.fillingOf_eq]
      exact ⟨hheld, hfill, (other .loc fun h => hx h.symm).trans hses⟩
  · intro y i hi
    rw [hr.heldBy_eq] at hi
    by_cases hy : y = x
    · rw [hy, own]
      exact Fin.zero_le i
    · rw [other y hy]
      exact hs.sessions y i hi
  · intro c hf hd
    rw [e.chan] at hf hd ⊢
    refine hs.flush c hf ?_
    rwa [← other _ fun he => by rw [he, own] at hd; cases hd]

/-- The records a side not ATTACHED may still hold: those its walk has not passed (R122, R126). -/
def notYetSwept (ses : Session) (i : RecIdx) : Prop :=
  match ses with
  | .sweeping (.next p) => p ≤ i
  | _ => False

/-- A side that is not ATTACHED enters another session state: what it still holds, and what stands queued for it, must suit that state. -/
theorem TableInv.changeSession (hs : TableInv.Full s) {x : Side} (hna : s.session.get x ≠ .attached) {ses : Session}
    (table : SameTable { s with session := s.session.set x ses, latched := t.latched } t) (latched : LatchedOk t.latched)
    (holds : ∀ i, heldBy s x i = true → notYetSwept ses i)
    (flush : ses = .detached → ∀ c, (s.chan c).flush = true → chanDest (s.chan c) = x → (s.chan c).queue = []) :
    TableInv.Full t := by
  have entry : ∀ i, t.entry i = s.entry i := entry_eq_of_records table.records
  have e : EditsInPlace s t :=
    ⟨fun i => by rw [entry]; exact .refl _, table.freeRecs, table.freeSegs, table.charge, table.chans⟩
  have other : ∀ y, y ≠ x → t.session.get y = s.session.get y := fun y hy => by rw [table.session, Per.get_set, if_neg hy]
  have own : t.session.get x = ses := by rw [table.session, Per.get_set_same]
  have jobside : ∀ j ∈ s.jobs, j.side ≠ x := fun j hj he => hna (he ▸ hs.jobs.attached j hj)
  have filling := fun i => fillingOf_congr (entry i)
  have length := fun i => lengthOf_congr (entry i)
  refine e.tableInv hs ?_ ?_ ?_ ?_ ?_ latched
  · intro i
    simp only [entry, e.heldOk_iff]
    exact hs.records i
  · have hj := hs.jobs
    refine
      { few := by rw [table.jobs]; exact hj.few
        clonesNodup := by rw [table.jobs]; exact hj.clonesNodup
        source := by simp only [table.jobs, e.heldBy_eq, filling]; exact hj.source
        clone := by simp only [table.jobs, e.heldBy_eq, filling]; exact hj.clone
        attached := ?_
        length := by simp only [table.jobs, length]; exact hj.length
        pins := fun i => by rw [table.jobs, pinsOf_congr (entry i)]; exact hj.pins i
        orphan := ?_
        progress := by simp only [table.jobs, table.progress, jobSteps, length]; exact hj.progress
        idle := by rw [table.jobs, table.progress]; exact hj.idle }
    · rw [table.jobs]
      intro j hmem
      rw [other _ (jobside j hmem)]
      exact hj.attached j hmem
    · intro i y hy hf hn
      rw [e.heldBy_eq] at hy
      by_cases hyx : y = x
      · subst hyx
        rw [own]
        refine Or.inl fun ha => ?_
        have := holds i hy
        rw [ha] at this
        exact this
      · rw [other y hyx]
        exact hj.orphan i y hy (by rwa [← filling]) (by rwa [table.jobs] at hn)
  · intro i hi
    rw [table.aperture] at hi
    obtain ⟨hheld, hf, hses⟩ := hs.aperture i hi
    rw [e.heldBy_eq, filling]
    exact ⟨hheld, hf, (other .loc fun he => hna (he ▸ hses)).trans hses⟩
  · intro y i hy
    rw [e.heldBy_eq] at hy
    by_cases hyx : y = x
    · subst hyx
      have := holds i hy
      rw [own]
      cases ses with
      | detached => exact this
      | attached => trivial
      | sweeping p => cases p <;> exact this
    · rw [other y hyx]
      exact hs.sessions y i hy
  · intro c hf hd
    rw [e.chan] at hf hd ⊢
    by_cases hcx : chanDest (s.chan c) = x
    · rw [hcx, own] at hd
      exact flush hd c hf hcx
    · rw [other _ hcx] at hd
      exact hs.flush c hf hd

/-- An ATTACH from DETACHED keeps the table's invariants. -/
theorem TableInv.attachedSide (hs : TableInv.Full s) {x : Side} (hd : s.session.get x = .detached) :
    TableInv.Full (attachSide x s) := by
  have holds : ∀ i, heldBy s x i = true → False := fun i hi => by
    have := hs.sessions x i hi
    rwa [hd] at this
  refine hs.changeSession (x := x) (ses := .attached) (by rw [hd]; simp) ⟨rfl, rfl, rfl, rfl, rfl, rfl, rfl, rfl, rfl, rfl⟩ ?_
    holds (by simp)
  refine LatchedOk.latch ?_ (by cases x <;> rfl)
  exact hs.latched.set_zero x

/-- What a sweeping side holds is in no copy job, and unpinned (R121). -/
theorem TableInv.unpinned_of_sweeping (hs : TableInv D s) {i : RecIdx} {h : Held} (hc : (s.entry i).custody = .held h)
    (hna : s.session.get h.holder ≠ .attached) : h.buf.pins = 0 := by
  rw [← pinsOf_held hc, hs.jobs.pins, List.length_eq_zero_iff, List.filter_eq_nil_iff]
  intro j hj hji
  have hji : j.source = i := by simpa using hji
  subst hji
  rw [(heldBy_held hc _).1 (hs.jobs.source j hj).1] at hna
  exact hna (hs.jobs.attached j hj)

/-- A sweep step retires the record at the position if the side holds it. -/
theorem TableInv.sweptRecord (hs : TableInv.Full s) {x : Side} (hna : s.session.get x ≠ .attached) (i : RecIdx) :
    TableInv.Full (sweepRecord x i s) ∧ heldBy (sweepRecord x i s) x i = false := by
  unfold sweepRecord
  cases hc : (s.entry i).custody with
  | free => exact ⟨hs, heldBy_free hc x⟩
  | queued q => exact ⟨hs, heldBy_queued hc x⟩
  | held h =>
    dsimp only
    split
    · next hx =>
      refine ⟨(hs.retireHeld hc (hs.unpinned_of_sweeping hc (by rwa [hx]))).mono fun j hj => hj.2, ?_⟩
      exact heldBy_free (retirePath_custody i s) x
    · next hx => exact ⟨hs, by simpa [heldBy, hc] using hx⟩

/-- A step of a sweep keeps the table's invariants: the position moves past a record the side no longer holds. -/
theorem TableInv.sweptStep (hs : TableInv.Full s) (x : Side) : TableInv.Full (sweepStep x s) := by
  unfold sweepStep
  split
  · next i hi =>
    have hna : s.session.get x ≠ .attached := by rw [hi]; simp
    obtain ⟨ht, hnot⟩ := hs.sweptRecord hna i
    have only := sweepRecord_tableOnly x i s
    generalize sweepRecord x i s = t at ht hnot only ⊢
    have hses : t.session.get x = .sweeping (.next i) := by rw [only.session, hi]
    refine ht.changeSession (x := x) (ses := .sweeping (sweepAfter i)) (by rw [hses]; simp)
      ⟨rfl, rfl, rfl, rfl, rfl, rfl, rfl, rfl, rfl, rfl⟩ ht.latched (fun j hj => ?_) (by simp)
    have hle := ht.sessions x j hj
    rw [hses] at hle
    have hne : j ≠ i := fun he => by rw [he, hnot] at hj; cases hj
    have hlt : i.val < j.val := lt_of_le_of_ne hle fun he => hne (Fin.ext he.symm)
    unfold sweepAfter
    split
    · exact hlt
    · next hlast => exact absurd (lt_of_le_of_lt hlt j.isLt) hlast
  · exact hs

/-- The completion of a sweep keeps the table's invariants: the side holds nothing, and nothing is queued for it to flush. -/
theorem TableInv.sweptOut (hs : TableInv.Full s) (x : Side) : TableInv.Full (sweepCompletion x s) := by
  unfold sweepCompletion
  split
  · next hd =>
    obtain ⟨ht, drained, empty⟩ := hs.flushPurged x
    have only := flushPurge_tableOnly x s
    dsimp only
    generalize flushPurge x s = t at ht drained empty only ⊢
    have hses : t.session.get x = .sweeping .done := by rw [only.session, hd]
    refine ht.changeSession (x := x) (ses := .detached) (by rw [hses]; simp)
      ⟨rfl, rfl, rfl, rfl, rfl, rfl, rfl, rfl, rfl, rfl⟩ ?_ (fun i hi => ?_) fun _ c hf hc => ?_
    · refine LatchedOk.latch ?_ (by cases x <;> rfl)
      exact ht.latched
    · have := ht.sessions x i hi
      rwa [hses] at this
    · obtain ⟨cfg, -⟩ := drained c
      rw [cfg.flush] at hf
      rw [cfg.dest] at hc
      exact empty c hf hc
  · exact hs

end Sys2Proof.Machine
end

section
/-! The requests: what each accepted request keeps, and what taking a request keeps. -/

namespace Sys2Proof.Machine

variable {s u : State} {x : Side} {args result : List Byte}

/-! ## What an accepted request keeps -/

theorem AmbientInv.of_tableOnly (hs : AmbientInv s) (h : TableOnly s u) : AmbientInv u where
  enables := by rw [h.session, h.enables]; exact hs.enables
  receiver := by unfold ReceiverInv; rw [h.nRESET, h.nHRST, h.rx]; exact hs.receiver
  store := by unfold StoreInv; rw [h.store]; exact hs.store
  poolRanges := by unfold PoolRangesInv; rw [h.quota, h.watermark]; exact hs.poolRanges
  resetHeld := by unfold ResetHeldInv; rw [h.nRESET, h.session, h.slot]; exact hs.resetHeld

theorem PortInv.of_tableOnly (hs : PortInv s) (h : TableOnly s u) : PortInv u := by
  unfold PortInv
  rw [h.overrun, h.slot, h.checkMode]
  exact hs

/-- What the effect of an accepted request of side `x` keeps. The slot's own invariant may wait for HOST's answer, which fills the slot. -/
structure Kept (x : Side) (s u : State) : Prop where
  table : TableInv.Full u
  ambient : AmbientInv u
  port : x = .loc → PortInv u
  nRESET : u.nRESET = s.nRESET

theorem Kept.of_tableOnly (hs : Inv s) (only : TableOnly s u) (table : TableInv.Full u) : Kept x s u := by
  obtain ⟨-, ambient, port⟩ := (inv_iff s).1 hs
  exact ⟨table, ambient.of_tableOnly only, fun _ => port.of_tableOnly only, only.nRESET⟩

theorem Inv.table (hs : Inv s) : TableInv.Full s := ((inv_iff s).1 hs).1

/-- The handler's acceptance, outside reset, keeps the invariants. -/
def Keeps (h : Handler) : Prop :=
  ∀ (x : Side) (args : List Byte) (s u : State) (result : List Byte), Inv s → s.nRESET = true → h x args s = .accept result u →
    Kept x s u

/-- Past steps 1 and 2 the requester is ATTACHED, but for ATTACH and LINKCFG (R14). -/
theorem permitted_accept {r : Req} (hr : r ≠ .attach ∧ r ≠ .linkcfg) {k : Verdict} (h : whenPermitted r x s k = .accept result u) :
    reqOpenTo x r = true ∧ s.session.get x = .attached ∧ k = .accept result u := by
  obtain ⟨hopen, hsession, hk⟩ := whenPermitted_accept.1 h
  refine ⟨hopen, ?_, hk⟩
  obtain ⟨h1, h2⟩ := hr
  cases hses : s.session.get x <;> cases r <;> simp_all [sessionCheck]

/-! ### The Custody Table and the Copy Engine -/

theorem segsFor_bounds {size : Nat} (h1 : 1 ≤ size) (h2 : size ≤ 4096) : 1 ≤ segsFor size ∧ segsFor size ≤ 32 := by
  unfold segsFor segBytes
  omega

theorem keeps_alloc : Keeps allocRequest := by
  intro x args s u result hs _ ha
  obtain ⟨-, hx, ha⟩ := permitted_accept (by simp) ha
  obtain ⟨⟨h1, h2⟩, ha⟩ := demand_accept.1 ha
  obtain ⟨-, i, rest, hfree, hn, ha⟩ := withResources_accept.1 ha
  cases ha
  obtain ⟨n1, n32⟩ := segsFor_bounds h1 h2
  have m := takeRecord_moves (D' := fun _ => False) (f := false) hs.table hfree hx hn n1 n32 (Nat.zero_le _) (argHalf args 2)
    (fun _ _ h => h) (by simp)
  exact .of_tableOnly hs (takeRecord_tableOnly _ _ _ _ _ _ _) (m.tableInv hs.table)

theorem keeps_retire : Keeps retireRequest := by
  intro x args s u result hs _ ha
  obtain ⟨-, -, ha⟩ := permitted_accept (by simp) ha
  obtain ⟨i, h, ⟨-, -, hc⟩, -, ha⟩ := withHeld_accept.1 ha
  obtain ⟨hp, ha⟩ := demand_accept.1 ha
  cases ha
  exact .of_tableOnly hs (retirePath_tableOnly i s) ((hs.table.retireHeld hc hp).mono fun _ hj => hj.2)

theorem keeps_settag : Keeps settagRequest := by
  intro x args s u result hs _ ha
  obtain ⟨-, -, ha⟩ := permitted_accept (by simp) ha
  obtain ⟨i, h, ⟨-, -, hc⟩, -, ha⟩ := withHeld_accept.1 ha
  cases ha
  exact .of_tableOnly hs (mapBuf_tableOnly _ _ _) (hs.table.setTag hc _)

theorem keeps_lookup : Keeps lookupRequest := by
  intro x args s u result hs _ ha
  obtain ⟨rfl, -⟩ := lookupRequest_accept ha
  exact .of_tableOnly hs (.refl _) hs.table

theorem keeps_clone : Keeps cloneRequest := by
  intro x args s u result hs _ ha
  obtain ⟨-, hx, ha⟩ := permitted_accept (by simp) ha
  obtain ⟨i, h, ⟨-, -, hc⟩, hholder, ha⟩ := withHeld_accept.1 ha
  obtain ⟨hf, ha⟩ := demand_accept.1 ha
  obtain ⟨hfew, ha⟩ := demand_accept.1 ha
  obtain ⟨-, c, rest, hfree, hn, ha⟩ := withResources_accept.1 ha
  cases ha
  exact .of_tableOnly hs (makeClone_tableOnly _ _ _ _ _) (hs.table.cloned hx hc hholder hf hfew hfree hn)

theorem keeps_renew : Keeps renewRequest := by
  intro x args s u result hs _ ha
  obtain ⟨-, -, ha⟩ := permitted_accept (by simp) ha
  obtain ⟨i, h, ⟨-, -, hc⟩, -, ha⟩ := withHeld_accept.1 ha
  obtain ⟨l, hl, ha⟩ := demandSome_accept.1 ha
  cases ha
  refine .of_tableOnly hs (setHeld_tableOnly _ _ _) ?_
  cases ho : h.origin with
  | none =>
    obtain ⟨-, -, horigin⟩ := hs.table.held hc
    rw [ho, hl] at horigin
    cases horigin.1
  | some c =>
    obtain ⟨-, -, lease⟩ := hs.table.held_from hc ho
    obtain ⟨h1, h2⟩ := lease l hl
    have := hs.table.setLease hc ho (l := { l with remaining := (s.chan c).leaseTime }) (h1.trans h2) (Nat.le_refl _)
    simpa only [originTime, ho] using this

/-! ### Channels -/

theorem keeps_chancfg : Keeps chancfgRequest := by
  intro x args s u result hs _ ha
  obtain ⟨-, -, ha⟩ := permitted_accept (by simp) ha
  obtain ⟨c, -, ha⟩ := withChan_accept.1 ha
  obtain ⟨src, -, ha⟩ := demandSome_accept.1 ha
  obtain ⟨⟨⟨d1, d32⟩, hp, hl⟩, ha⟩ := demand_accept.1 ha
  obtain ⟨flush, -, ha⟩ := demandSome_accept.1 ha
  obtain ⟨hdis, ha⟩ := demand_accept.1 ha
  cases ha
  obtain ⟨-, -, -, hzero, -⟩ := hs.outstanding c
  have h0 := hzero hdis
  refine .of_tableOnly hs (setChan_tableOnly _ _ _) (hs.table.editChan rfl rfl ⟨?_, d32, fun _ => h0, fun _ => d1⟩
    ⟨hp, hl, Nat.zero_le _⟩ (Or.inl h0))
  show (s.chan c).outstanding ≤ _
  rw [h0]
  exact Nat.zero_le _

theorem keeps_chanon : Keeps chanonRequest := by
  intro x args s u result hs _ ha
  obtain ⟨-, -, ha⟩ := permitted_accept (by simp) ha
  obtain ⟨c, -, ha⟩ := withChan_accept.1 ha
  obtain ⟨hcfg, ha⟩ := demand_accept.1 ha
  cases ha
  obtain ⟨-, hdepth, h32, -, hen⟩ := hs.outstanding c
  exact .of_tableOnly hs (setChan_tableOnly _ _ _) (hs.table.editChan rfl rfl
    ⟨hdepth, h32, by simp, fun _ => hcfg.elim hen Nat.one_le_iff_ne_zero.2⟩ (hs.channelRanges c) (Or.inr ⟨rfl, rfl, rfl⟩))

theorem keeps_chanoff : Keeps chanoffRequest := by
  intro x args s u result hs _ ha
  obtain ⟨-, -, ha⟩ := permitted_accept (by simp) ha
  obtain ⟨c, -, ha⟩ := withChan_accept.1 ha
  obtain ⟨h0, ha⟩ := demand_accept.1 ha
  cases ha
  obtain ⟨-, hdepth, h32, -, -⟩ := hs.outstanding c
  exact .of_tableOnly hs (setChan_tableOnly _ _ _) (hs.table.editChan rfl rfl
    ⟨hdepth, h32, fun _ => h0, by simp⟩ (hs.channelRanges c) (Or.inl h0))

theorem keeps_tally : Keeps tallyRequest := by
  intro x args s u result hs _ ha
  obtain ⟨-, -, ha⟩ := permitted_accept (by simp) ha
  obtain ⟨c, -, ha⟩ := withChan_accept.1 ha
  obtain ⟨-, ha⟩ := demand_accept.1 ha
  cases ha
  obtain ⟨hp, hl, -⟩ := hs.channelRanges c
  exact .of_tableOnly hs (setChan_tableOnly _ _ _) (hs.table.editChan rfl rfl (hs.outstanding c).2 ⟨hp, hl, Nat.zero_le _⟩
    (Or.inr ⟨rfl, rfl, rfl⟩))

theorem keeps_chaninfo : Keeps chaninfoRequest := by
  intro x args s u result hs _ ha
  obtain ⟨-, -, ha⟩ := permitted_accept (by simp) ha
  obtain ⟨c, -, ha⟩ := withChan_accept.1 ha
  cases ha
  exact .of_tableOnly hs (.refl _) hs.table

theorem keeps_purge : Keeps purgeRequest := by
  intro x args s u result hs _ ha
  obtain ⟨-, -, ha⟩ := permitted_accept (by simp) ha
  obtain ⟨c, -, ha⟩ := withChan_accept.1 ha
  cases ha
  exact .of_tableOnly hs (purgeQueue_tableOnly c s) (hs.table.purged c).1

/-- A record that passes the checks of POST or RETURN is placed. -/
theorem Kept.placed (hs : Inv s) {i : RecIdx} {h : Held} (hc : (s.entry i).custody = .held h) (hholder : h.holder = x)
    (hb : h.buf.pins = 0 ∧ h.buf.filling = false) {c : ChanNo} {more : Bool} {reply : Option ChanNo} {bytes : List Byte}
    (ha : withRoom x c more s (.accept bytes (placeOn i h c reply s)) = .accept result u) : Kept x s u := by
  obtain ⟨⟨hen, hsrc⟩, -, hpeer, hroom, ha⟩ := withRoom_accept.1 ha
  cases ha
  exact .of_tableOnly hs (placeOn_tableOnly _ _ _ _ _)
    ((placeOn_moves hs.table hc hb.1 hb.2 hen (hsrc.trans hholder.symm) hroom hpeer reply).tableInv hs.table)

theorem keeps_post : Keeps postRequest := by
  intro x args s u result hs _ ha
  obtain ⟨-, -, ha⟩ := permitted_accept (by simp) ha
  obtain ⟨c, -, ha⟩ := withChan_accept.1 ha
  obtain ⟨reply, -, ha⟩ := demandSome_accept.1 ha
  obtain ⟨i, h, ⟨-, -, hc⟩, hholder, ha⟩ := withHeld_accept.1 ha
  obtain ⟨hb, ha⟩ := demand_accept.1 ha
  exact .placed hs hc hholder hb ha

theorem keeps_ret : Keeps returnRequest := by
  intro x args s u result hs _ ha
  obtain ⟨-, -, ha⟩ := permitted_accept (by simp) ha
  obtain ⟨i, h, ⟨-, -, hc⟩, hholder, ha⟩ := withHeld_accept.1 ha
  obtain ⟨hb, ha⟩ := demand_accept.1 ha
  obtain ⟨r, -, ha⟩ := demandSome_accept.1 ha
  exact .placed hs hc hholder hb ha

/-- A claim of a record found in the queue of a channel the requester, ATTACHED, is the destination of. -/
theorem Kept.claimed (hs : Inv s) (hx : s.session.get x = .attached) {c : ChanNo} (hdest : chanDest (s.chan c) = x) {i : RecIdx}
    (hi : i ∈ (s.chan c).queue) (ha : claimFrom x c i s = .accept result u) : Kept x s u := by
  obtain ⟨q, hq, rfl⟩ := hs.table.queued_of_mem hi
  unfold claimFrom at ha
  rw [hq] at ha
  cases ha
  subst hdest
  exact .of_tableOnly hs (claimRecord_tableOnly _ _ _ _ _) ((claimRecord_moves hs.table hq hx).tableInv hs.table)

theorem keeps_claim : Keeps claimRequest := by
  intro x args s u result hs _ ha
  obtain ⟨-, hx, ha⟩ := permitted_accept (by simp) ha
  obtain ⟨c, -, ha⟩ := withChan_accept.1 ha
  obtain ⟨⟨-, hdest⟩, ha⟩ := demand_accept.1 ha
  obtain ⟨i, hi, ha⟩ := demandSome_accept.1 ha
  exact .claimed hs hx hdest (List.mem_of_head? hi) ha

theorem keeps_claimtag : Keeps claimtagRequest := by
  intro x args s u result hs _ ha
  obtain ⟨-, hx, ha⟩ := permitted_accept (by simp) ha
  obtain ⟨c, -, ha⟩ := withChan_accept.1 ha
  obtain ⟨⟨-, hdest⟩, ha⟩ := demand_accept.1 ha
  obtain ⟨i, hi, ha⟩ := demandSome_accept.1 ha
  exact .claimed hs hx hdest (List.mem_of_find?_eq_some hi) ha

/-- No invariant speaks of the round-robin pointers. -/
theorem Inv.with_rr (hs : Inv s) (p : Per ChanNo) : Inv { s with rr := p } := by
  obtain ⟨table, ambient, port⟩ := (inv_iff s).1 hs
  exact (inv_iff _).2 ⟨table.congr ⟨rfl, rfl, rfl, rfl, rfl, rfl, rfl, rfl, rfl, rfl⟩,
    ⟨ambient.enables, ambient.receiver, ambient.store, ambient.poolRanges, ambient.resetHeld⟩, port⟩

theorem keeps_claimany : Keeps claimanyRequest := by
  intro x args s u result hs _ ha
  obtain ⟨-, hx, ha⟩ := permitted_accept (by simp) ha
  obtain ⟨c, hc, ha⟩ := demandSome_accept.1 ha
  obtain ⟨i, hi, ha⟩ := demandSome_accept.1 ha
  have hcand := List.find?_some hc
  simp only [candidate, Bool.and_eq_true, beq_iff_eq] at hcand
  obtain ⟨⟨⟨-, hdest⟩, -⟩, -⟩ := hcand
  have kept := Kept.claimed (hs.with_rr (s.rr.set x (c + 1))) hx hdest (List.mem_of_head? hi) ha
  exact ⟨kept.table, kept.ambient, kept.port, kept.nRESET⟩

/-! ### Record data -/

theorem keeps_setlen : Keeps setlenRequest := by
  intro x args s u result hs _ ha
  obtain ⟨-, -, ha⟩ := permitted_accept (by simp) ha
  obtain ⟨-, ha⟩ := demand_accept.1 ha
  obtain ⟨i, h, ⟨-, -, hc⟩, -, ha⟩ := withHeld_accept.1 ha
  obtain ⟨⟨hp, hf⟩, ha⟩ := demand_accept.1 ha
  obtain ⟨hlen, ha⟩ := demand_accept.1 ha
  cases ha
  exact .of_tableOnly hs (mapBuf_tableOnly _ _ _) (hs.table.setLength hc hp hf (hlen.trans (hs.table.held hc).1))

theorem StoreInv.writeRun {m : Memory} (h : Memory.wf m ∧ ∀ c ∈ m, c.1 < 65536) (b : Buffer) (o : Nat) (data : List Byte) :
    Memory.wf (writeRun m b o data) ∧ ∀ c ∈ Machine.writeRun m b o data, c.1 < 65536 :=
  ⟨writeRun_wf m b o data h.1, writeRun_below h.2⟩

/-- The ambient invariants of a state that differs in the table, and in a store that is still canonical. -/
theorem AmbientInv.with_store (hs : AmbientInv s) {m : Memory} (hm : Memory.wf m ∧ ∀ c ∈ m, c.1 < 65536) :
    AmbientInv { s with store := m } := ⟨hs.enables, hs.receiver, hm, hs.poolRanges, hs.resetHeld⟩

/-- A write below the capacity of a HELD record in no copy job (R137). -/
theorem Kept.written (hs : Inv s) {i : RecIdx} {h : Held} (hc : (s.entry i).custody = .held h) (hp : h.buf.pins = 0)
    (hf : h.buf.filling = false) {o : Nat} {data : List Byte} (hcap : o + data.length ≤ h.buf.capacity) :
    Kept x s (writeRecord i h.buf o data s) := by
  obtain ⟨table, ambient, port⟩ := (inv_iff s).1 hs
  have ht : TableInv.Full { s with store := writeRun s.store h.buf o data } :=
    table.congr ⟨rfl, rfl, rfl, rfl, rfl, rfl, rfl, rfl, rfl, rfl⟩
  have ham : AmbientInv { s with store := writeRun s.store h.buf o data } := ambient.with_store (StoreInv.writeRun hs.store _ _ _)
  refine ⟨?_, ham.of_tableOnly (mapBuf_tableOnly _ _ _), fun _ => ?_, rfl⟩
  · exact ht.setLength (s := { s with store := writeRun s.store h.buf o data }) hc hp hf (max_le (table.held hc).1 hcap)
  · exact PortInv.of_tableOnly (s := { s with store := writeRun s.store h.buf o data }) port (mapBuf_tableOnly _ _ _)

theorem keeps_write : Keeps writeRequest := by
  intro x args s u result hs _ ha
  obtain ⟨-, -, ha⟩ := permitted_accept (by simp) ha
  obtain ⟨-, ha⟩ := demand_accept.1 ha
  obtain ⟨i, h, ⟨-, -, hc⟩, -, ha⟩ := withHeld_accept.1 ha
  obtain ⟨⟨hp, hf⟩, ha⟩ := demand_accept.1 ha
  obtain ⟨-, ha⟩ := demand_accept.1 ha
  obtain ⟨hcap, ha⟩ := demand_accept.1 ha
  cases ha
  exact .written hs hc hp hf hcap

theorem keeps_read : Keeps readRequest := by
  intro x args s u result hs _ ha
  obtain ⟨-, -, ha⟩ := permitted_accept (by simp) ha
  obtain ⟨-, ha⟩ := demand_accept.1 ha
  obtain ⟨i, h, -, -, ha⟩ := withHeld_accept.1 ha
  obtain ⟨-, ha⟩ := demand_accept.1 ha
  obtain ⟨-, ha⟩ := demand_accept.1 ha
  cases ha
  exact .of_tableOnly hs (.refl _) hs.table

/-- The aperture is bound anew, to a record that may be bound, or unbound. -/
theorem Kept.rebound (hs : Inv s) {a : Option RecIdx} (ha : ApertureInv { s with aperture := a }) :
    Kept x s { s with aperture := a } :=
  .of_tableOnly hs rfl
    { hs.table with
      aperture := ha
      jobs := hs.table.jobs.congr rfl rfl rfl (fun _ _ => rfl) (fun _ => rfl) (fun _ => rfl) fun _ _ => ⟨rfl, rfl⟩ }

theorem keeps_open : Keeps openRequest := by
  intro x args s u result hs _ ha
  obtain ⟨hopen, hx, ha⟩ := permitted_accept (by simp) ha
  obtain ⟨i, h, ⟨-, -, hc⟩, hholder, ha⟩ := withHeld_accept.1 ha
  obtain ⟨hf, ha⟩ := demand_accept.1 ha
  cases ha
  have hloc : x = .loc := by simpa [reqOpenTo] using hopen
  subst hloc
  refine .rebound hs fun j hj => ?_
  cases hj
  exact ⟨(heldBy_held hc _).2 hholder, (fillingOf_held hc).trans hf, hx⟩

theorem keeps_close : Keeps closeRequest := by
  intro x args s u result hs _ ha
  obtain ⟨-, -, ha⟩ := permitted_accept (by simp) ha
  cases ha
  exact .rebound hs fun j hj => by cases hj

/-! ### The pool and the events -/

theorem keeps_poolinfo : Keeps poolinfoRequest := by
  intro x args s u result hs _ ha
  obtain ⟨-, -, ha⟩ := permitted_accept (by simp) ha
  cases ha
  exact .of_tableOnly hs (.refl _) hs.table

theorem keeps_quota : Keeps quotaRequest := by
  intro x args s u result hs _ ha
  obtain ⟨-, -, ha⟩ := permitted_accept (by simp) ha
  obtain ⟨y, -, ha⟩ := demandSome_accept.1 ha
  obtain ⟨hq, ha⟩ := demand_accept.1 ha
  cases ha
  obtain ⟨table, ambient, port⟩ := (inv_iff s).1 hs
  obtain ⟨hhost, hloc, hmark⟩ := ambient.poolRanges
  have ranges : PoolRangesInv { s with quota := s.quota.set y (arg16 args 2) } := by
    cases y with
    | host => exact ⟨hq, hloc, hmark⟩
    | loc => exact ⟨hhost, hq, hmark⟩
  exact ⟨table.congr ⟨rfl, rfl, rfl, rfl, rfl, rfl, rfl, rfl, rfl, rfl⟩,
    ⟨ambient.enables, ambient.receiver, ambient.store, ranges, ambient.resetHeld⟩, fun _ => port, rfl⟩

theorem keeps_watermark : Keeps watermarkRequest := by
  intro x args s u result hs _ ha
  obtain ⟨-, -, ha⟩ := permitted_accept (by simp) ha
  obtain ⟨hw, ha⟩ := demand_accept.1 ha
  cases ha
  obtain ⟨table, ambient, port⟩ := (inv_iff s).1 hs
  obtain ⟨hhost, hloc, -⟩ := ambient.poolRanges
  exact ⟨table.congr ⟨rfl, rfl, rfl, rfl, rfl, rfl, rfl, rfl, rfl, rfl⟩,
    ⟨ambient.enables, ambient.receiver, ambient.store, ⟨hhost, hloc, hw⟩, ambient.resetHeld⟩, fun _ => port, rfl⟩

theorem keeps_events : Keeps eventsRequest := by
  intro x args s u result hs _ ha
  obtain ⟨-, -, ha⟩ := permitted_accept (by simp) ha
  cases ha
  exact .of_tableOnly hs (.refl _) hs.table

/-- Events taken out of a latched set leave it without what may not be latched. -/
theorem LatchedOk.set_and {m : Per EventSet} (h : LatchedOk m) (x : Side) (k : EventSet) :
    LatchedOk (m.set x (m.get x &&& k)) := by
  obtain ⟨hh, hx⟩ := h
  have key : ∀ a b : EventSet, a &&& b = 0 → (a &&& k) &&& b = 0 := fun a b hab => by
    rw [BitVec.and_assoc, BitVec.and_comm k, ← BitVec.and_assoc, hab]
    exact BitVec.zero_and
  constructor
  · cases x with
    | host => exact key _ _ hh
    | loc => exact hh
  · intro y
    rw [Per.get_set]
    split
    · exact key _ _ (hx x)
    · exact hx y

theorem keeps_ack : Keeps ackRequest := by
  intro x args s u result hs _ ha
  obtain ⟨-, -, ha⟩ := permitted_accept (by simp) ha
  obtain ⟨-, ha⟩ := demand_accept.1 ha
  cases ha
  exact .of_tableOnly hs rfl
    (hs.table.of_latched ⟨rfl, rfl, rfl, rfl, rfl, rfl, rfl, rfl, rfl, rfl⟩ (hs.table.latched.set_and x _))

theorem keeps_evmask : Keeps evmaskRequest := by
  intro x args s u result hs _ ha
  obtain ⟨-, hx, ha⟩ := permitted_accept (by simp) ha
  obtain ⟨-, ha⟩ := demand_accept.1 ha
  cases ha
  obtain ⟨table, ambient, port⟩ := (inv_iff s).1 hs
  refine ⟨table.congr ⟨rfl, rfl, rfl, rfl, rfl, rfl, rfl, rfl, rfl, rfl⟩,
    ⟨fun y hy => ?_, ambient.receiver, ambient.store, ambient.poolRanges, ambient.resetHeld⟩, fun _ => port, rfl⟩
  have hyx : y ≠ x := fun he => hy (he ▸ hx)
  show (s.enables.set x _).get y = 0
  rw [Per.get_set, if_neg hyx]
  exact ambient.enables y hy

/-! ### Sessions and the host link -/

/-- The ambient invariants of a state whose sessions and enables alone differ, outside reset. -/
theorem AmbientInv.with_session (hs : AmbientInv s) (h1 : s.nRESET = true) {session : Per Session} {enables : Per EventSet}
    (h : ∀ y, session.get y ≠ .attached → enables.get y = 0) :
    AmbientInv { s with session := session, enables := enables } :=
  ⟨h, hs.receiver, hs.store, hs.poolRanges, fun h0 => by rw [show s.nRESET = false from h0] at h1; cases h1⟩

/-- One side's enables are cleared with its change of session (R115, R121). -/
theorem AmbientInv.enables_cleared (hs : AmbientInv s) (x : Side) (ses : Session) (y : Side)
    (hy : (s.session.set x ses).get y ≠ .attached) : (s.enables.set x 0).get y = 0 := by
  rw [Per.get_set] at hy ⊢
  split
  · rfl
  · next h =>
    rw [if_neg h] at hy
    exact hs.enables y hy

theorem keeps_attach : Keeps attachRequest := by
  intro x args s u result hs h1 ha
  obtain ⟨-, -, ha⟩ := whenPermitted_accept.1 ha
  cases ha
  obtain ⟨table, ambient, port⟩ := (inv_iff s).1 hs
  split
  · next hd =>
    have ham := ambient.with_session h1 (ambient.enables_cleared x .attached)
    exact ⟨table.attachedSide hd, ⟨ham.enables, ham.receiver, ham.store, ham.poolRanges, ham.resetHeld⟩, fun _ => port, rfl⟩
  · exact ⟨table, ambient, fun _ => port, rfl⟩

theorem startSweep_tableOnly (x : Side) (s : State) :
    TableOnly { s with session := s.session.set x (.sweeping (.next 0)), enables := s.enables.set x 0 } (startSweep x s) := by
  have h := removeJobs_tableOnly (fun j => j.side == x)
    { s with session := s.session.set x (.sweeping (.next 0)), enables := s.enables.set x 0 }
  unfold startSweep
  cases x with
  | host => exact h
  | loc => exact h.trans rfl

/-- The start of a sweep keeps the invariants, outside reset. -/
theorem Inv.startSweep (hs : Inv s) (h1 : s.nRESET = true) (x : Side) : Inv (startSweep x s) := by
  obtain ⟨table, ambient, port⟩ := (inv_iff s).1 hs
  have only := startSweep_tableOnly x s
  refine (inv_iff _).2 ⟨table.sweepStarted (startSweep_spec x s), ?_, ?_⟩
  · exact (ambient.with_session h1 (ambient.enables_cleared x _)).of_tableOnly only
  · refine PortInv.of_tableOnly ?_ only
    exact port

theorem Kept.of_inv (hu : Inv u) (h : u.nRESET = s.nRESET) : Kept x s u := by
  obtain ⟨table, ambient, port⟩ := (inv_iff u).1 hu
  exact ⟨table, ambient, fun _ => port, h⟩

theorem keeps_detach : Keeps detachRequest := by
  intro x args s u result hs h1 ha
  obtain ⟨-, -, ha⟩ := permitted_accept (by simp) ha
  cases ha
  exact .of_inv (hs.startSweep h1 x) (startSweep_tableOnly x s).nRESET

theorem keeps_evict : Keeps evictRequest := by
  intro x args s u result hs h1 ha
  obtain ⟨-, -, ha⟩ := permitted_accept (by simp) ha
  obtain ⟨-, ha⟩ := demand_accept.1 ha
  cases ha
  exact .of_inv (hs.startSweep h1 .host) (startSweep_tableOnly .host s).nRESET

theorem keeps_linkcfg : Keeps linkcfgRequest := by
  intro x args s u result hs _ ha
  obtain ⟨hopen, -, ha⟩ := whenPermitted_accept.1 ha
  obtain ⟨m, -, ha⟩ := demandSome_accept.1 ha
  cases ha
  have hhost : x = .host := by simpa [reqOpenTo] using hopen
  obtain ⟨table, ambient, -⟩ := (inv_iff s).1 hs
  exact ⟨table.congr ⟨rfl, rfl, rfl, rfl, rfl, rfl, rfl, rfl, rfl, rfl⟩,
    ⟨ambient.enables, ambient.receiver, ambient.store, ambient.poolRanges, ambient.resetHeld⟩,
    fun h => (by rw [hhost] at h; cases h), rfl⟩

/-- Every request's acceptance keeps the invariants. -/
theorem handlerOf_keeps : ∀ r : Req, Keeps (handlerOf r)
  | .attach => keeps_attach | .detach => keeps_detach | .evict => keeps_evict
  | .alloc => keeps_alloc | .retire => keeps_retire | .settag => keeps_settag | .lookup => keeps_lookup
  | .setlen => keeps_setlen | .write => keeps_write | .read => keeps_read | .clone => keeps_clone | .renew => keeps_renew
  | .post => keeps_post | .ret => keeps_ret | .claim => keeps_claim | .claimtag => keeps_claimtag
  | .claimany => keeps_claimany | .tally => keeps_tally | .chaninfo => keeps_chaninfo
  | .chancfg => keeps_chancfg | .chanon => keeps_chanon | .chanoff => keeps_chanoff | .purge => keeps_purge
  | .poolinfo => keeps_poolinfo | .quota => keeps_quota | .watermark => keeps_watermark
  | .events => keeps_events | .ack => keeps_ack | .evmask => keeps_evmask
  | .openRec => keeps_open | .closeAp => keeps_close
  | .linkcfg => keeps_linkcfg

/-- A code that names no request is never accepted. -/
theorem handlerOfCode_keeps (code : Byte) : Keeps (handlerOfCode code) := by
  unfold handlerOfCode
  split
  · exact handlerOf_keeps _
  · intro x args s u result _ _ ha
    cases ha

end Sys2Proof.Machine
end

section
/-! The ports and lines, and the step. -/

namespace Sys2Proof.Machine

variable {s u : State}

/-! ## Taking a request -/

/-- A frame is collected only while both reset lines are high (R166). -/
theorem ReceiverInv.lines_high (hs : ReceiverInv s) (h : frameTaken s = true) : s.nRESET = true ∧ s.nHRST = true := by
  unfold frameTaken rxNow at h
  cases hrx : s.rx with
  | idle =>
    by_cases hl : (s.nRESET && s.nHRST) = true
    · simpa using hl
    · simp [hrx, hl] at h
  | collecting b =>
    have low : ∀ l, ¬(s.nRESET = l ∧ l = false ∨ s.nHRST = l ∧ l = false) := by
      rintro l (⟨h1, rfl⟩ | ⟨h1, rfl⟩)
      · exact hs (Or.inl h1) b hrx
      · exact hs (Or.inr h1) b hrx
    constructor
    · cases h1 : s.nRESET
      · exact absurd (Or.inl ⟨h1, rfl⟩) (low false)
      · rfl
    · cases h1 : s.nHRST
      · exact absurd (Or.inr ⟨h1, rfl⟩) (low false)
      · rfl
  | abandoned sent => simp [hrx] at h
  | ignoring => simp [hrx] at h

/-- A request its port does not drop arrives outside reset. -/
theorem Inv.nRESET_of_present (hs : Inv s) {v : Via} {code : Byte} (h : present v code s ≠ .dropped) : s.nRESET = true := by
  cases v with
  | host bits =>
    unfold present at h
    dsimp only at h
    split at h
    · next ht => exact (hs.receiver.lines_high ht).1
    · exact absurd rfl h
  | loc upper lanes =>
    unfold present at h
    dsimp only at h
    split at h
    · assumption
    · exact absurd rfl h

theorem closeFrame_eq (edges : Nat) (bytes : List Byte) (s : State) :
    closeFrame edges bytes s = { s with rx := .idle, shifted := (closeFrame edges bytes s).shifted } := by
  unfold closeFrame
  split <;> rfl

/-- The port's entry touches its own state alone, and leaves no frame in progress. -/
theorem entered_rx (v : Via) (code : Byte) (s : State) : (entered v code s).rx = s.rx ∨ (entered v code s).rx = .idle := by
  cases v with
  | loc u l => simp only [entered]; split <;> exact Or.inl rfl
  | host bits =>
    refine Or.inr ?_
    simp only [entered]
    rw [closeFrame_eq]
    split
    · split <;> rfl
    · rfl

/-- OVERRUN changes at a port's entry only where the slot is READY (R171). -/
theorem entered_overrun (v : Via) (code : Byte) (s : State) :
    (entered v code s).overrun = s.overrun ∨ ∃ a, s.slot = .ready a := by
  cases v with
  | loc u l => simp only [entered]; split <;> exact Or.inl rfl
  | host bits =>
    have close : (closeFrame (8 + bits.length) [] s).overrun = s.overrun := by rw [closeFrame_eq]
    simp only [entered]
    split
    · split
      · exact Or.inr ⟨_, ‹_›⟩
      · exact Or.inl close
    · exact Or.inl close

theorem Inv.entered (hs : Inv s) (v : Via) (code : Byte) : Inv (entered v code s) := by
  obtain ⟨table, ambient, port⟩ := (inv_iff s).1 hs
  refine (inv_iff _).2 ⟨table.congr ?_, ?_, ?_⟩
  · exact ⟨by simp, by simp, by simp, by simp, by simp, by simp, by simp, by simp, by simp, by simp⟩
  · refine ⟨by simpa using ambient.enables, ?_, by simpa [StoreInv] using ambient.store, by simpa [PoolRangesInv] using ambient.poolRanges,
      by simpa [ResetHeldInv] using ambient.resetHeld⟩
    unfold ReceiverInv
    rw [entered_nRESET, entered_nHRST]
    intro hl b
    rcases entered_rx v code s with h | h
    · rw [h]
      exact ambient.receiver hl b
    · rw [h]
      simp
  · obtain ⟨ready, empty⟩ := port
    rcases entered_overrun v code s with h | ⟨a, ha⟩
    · unfold PortInv
      rw [h, entered_slot, entered_checkMode]
      exact ⟨ready, empty⟩
    · unfold PortInv
      rw [entered_slot, ha]
      exact ⟨fun _ => ⟨a, rfl⟩, fun h => by cases h⟩

/-- The answer in its place keeps the invariants: HOST's fills the slot, LOCAL's touches registers alone. -/
theorem answered_inv {v : Via} (hu : Kept v.side s u) (h1 : s.nRESET = true) (code : Byte) (st : Status) (result : List Byte) :
    Inv (answered v code st result u) := by
  obtain ⟨table, ambient, port, hres⟩ := hu
  cases v with
  | host bits =>
    refine (inv_iff _).2 ⟨table.congr ⟨rfl, rfl, rfl, rfl, rfl, rfl, rfl, rfl, rfl, rfl⟩,
      ⟨ambient.enables, ambient.receiver, ambient.store, ambient.poolRanges, fun h0 => ?_⟩, ⟨fun _ => ⟨_, rfl⟩, fun h => by cases h⟩⟩
    have h0 : u.nRESET = false := h0
    rw [hres, h1] at h0
    cases h0
  | loc upper lanes =>
    exact (inv_iff _).2 ⟨table.congr ⟨rfl, rfl, rfl, rfl, rfl, rfl, rfl, rfl, rfl, rfl⟩,
      ⟨ambient.enables, ambient.receiver, ambient.store, ambient.poolRanges, ambient.resetHeld⟩, port rfl⟩

/-- Taking a request keeps the invariants. -/
theorem Inv.takeRequest (hs : Inv s) {h : Handler} (hh : Keeps h) (code : Byte) (v : Via) : Inv (takeRequest code h v s) := by
  have he := hs.entered v code
  have refused : present v code s ≠ .dropped → ∀ st, Inv (answered v code st [] (Machine.entered v code s)) := fun hp st =>
    answered_inv (.of_inv he (entered_nRESET v code s)) (hs.nRESET_of_present hp) code st []
  cases hp : present v code s with
  | dropped =>
    rw [takeRequest_dropped hp]
    exact he
  | turned st =>
    rw [takeRequest_turned hp]
    exact refused (by simp [hp]) st
  | carried args =>
    cases ha : h v.side args (Machine.entered v code s) with
    | refuse st =>
      rw [takeRequest_refuse hp ha]
      exact refused (by simp [hp]) st
    | accept result u =>
      rw [takeRequest_accept hp ha]
      have h1 : (Machine.entered v code s).nRESET = true := by
        rw [entered_nRESET]
        exact hs.nRESET_of_present (v := v) (code := code) (by simp [hp])
      exact answered_inv (hh v.side args _ u result he h1 ha) h1 code .ok result

/-! ## Frames -/

/-- An update of the port's and the window's own fields: the invariants to show are those about the receiver and the slot. -/
theorem Inv.of_ports (hs : Inv s) (table : SameTable s u)
    (fields : u.enables = s.enables ∧ u.store = s.store ∧ u.quota = s.quota ∧ u.watermark = s.watermark ∧ u.nRESET = s.nRESET)
    (receiver : ReceiverInv u) (port : PortInv u) (slot : s.slot = .empty → u.slot = .empty) : Inv u := by
  obtain ⟨enables, store, quota, watermark, nRESET⟩ := fields
  obtain ⟨t, a, -⟩ := (inv_iff s).1 hs
  refine (inv_iff u).2 ⟨t.congr table, ⟨?_, receiver, ?_, ?_, ?_⟩, port⟩
  · rw [table.session, enables]
    exact a.enables
  · unfold StoreInv
    rw [store]
    exact a.store
  · unfold PoolRangesInv
    rw [quota, watermark]
    exact a.poolRanges
  · intro h0
    rw [nRESET] at h0
    obtain ⟨hses, hslot⟩ := a.resetHeld h0
    exact ⟨table.session.trans hses, slot hslot⟩

theorem Inv.closeFrame (hs : Inv s) (edges : Nat) (bytes : List Byte) : Inv (closeFrame edges bytes s) := by
  rw [closeFrame_eq]
  exact hs.of_ports ⟨rfl, rfl, rfl, rfl, rfl, rfl, rfl, rfl, rfl, rfl⟩ ⟨rfl, rfl, rfl, rfl, rfl⟩ (fun _ b h => by cases h) hs.port id

theorem Inv.fetchFrame (hs : Inv s) (bits : List Bool) : Inv (fetchFrame bits s) := by
  have hc := hs.closeFrame (8 + bits.length) (fetchBytes s)
  unfold Machine.fetchFrame
  dsimp only
  split
  · rw [closeFrame_eq] at hc ⊢
    refine hc.of_ports ⟨rfl, rfl, rfl, rfl, rfl, rfl, rfl, rfl, rfl, rfl⟩ ⟨rfl, rfl, rfl, rfl, rfl⟩ hc.receiver ?_ fun h => ?_
    · obtain ⟨-, empty⟩ := hs.port
      cases hslot : s.slot with
      | empty =>
        obtain ⟨hcheck, hover⟩ := empty hslot
        exact ⟨fun h => by simp [overrunFetched, hslot, hover] at h, fun _ => ⟨hcheck, by simp [overrunFetched, hslot, hover]⟩⟩
      | ready a => exact ⟨fun h => by simp [overrunFetched, hslot] at h, fun h => by cases h⟩
      | fetched a => exact ⟨fun h => by simp [overrunFetched, hslot] at h, fun h => by cases h⟩
    · have hslot : s.slot = .empty := h
      show slotFetched s.slot = .empty
      rw [hslot]
      rfl
  · exact hc

theorem Inv.anyFrame (hs : Inv s) (bits : List Bool) : Inv (anyFrame bits s) := by
  unfold Machine.anyFrame
  split
  · exact hs.closeFrame _ _
  · split
    · exact hs.fetchFrame _
    · exact hs.takeRequest (handlerOfCode_keeps _) _ _

theorem Inv.frameBegins (hs : Inv s) : Inv (frameBegins s) := by
  unfold Machine.frameBegins
  split
  · next hidle =>
    refine hs.of_ports ⟨rfl, rfl, rfl, rfl, rfl, rfl, rfl, rfl, rfl, rfl⟩ ⟨rfl, rfl, rfl, rfl, rfl⟩ ?_ hs.port id
    intro hl b hb
    have hb : rxNow s = .collecting b := hb
    have hl : s.nRESET = false ∨ s.nHRST = false := hl
    unfold rxNow at hb
    rw [hidle] at hb
    rcases hl with h | h <;> simp [h] at hb
  · exact hs

/-! ## The local bus -/

/-- The record of the last bus access is in no invariant. -/
theorem Inv.with_bus (hs : Inv s) (a : Option BusAnswer) : Inv { s with bus := a } :=
  hs.of_ports ⟨rfl, rfl, rfl, rfl, rfl, rfl, rfl, rfl, rfl, rfl⟩ ⟨rfl, rfl, rfl, rfl, rfl⟩ hs.receiver hs.port id

theorem Inv.busDone (hs : Inv s) (d : Option Word) : Inv (busDone d s) := hs.with_bus _

theorem Inv.busFailed (hs : Inv s) (w : Bool) : Inv (busFailed w s) := hs.with_bus _

theorem Inv.of_tableOnly (hs : Inv s) (only : TableOnly s u) (table : TableInv.Full u) : Inv u := by
  obtain ⟨-, a, p⟩ := (inv_iff s).1 hs
  exact (inv_iff u).2 ⟨table, a.of_tableOnly only, p.of_tableOnly only⟩

theorem Inv.apertureFaulted (hs : Inv s) (d : Option Word) : Inv (apertureFaulted d s) :=
  (hs.of_tableOnly (latch_tableOnly _ _ _) (hs.table.latchEvent (x := .loc) (e := .apertureFault) rfl)).busDone d

theorem Inv.apertureRead (hs : Inv s) (word : BitVec 10) : Inv (apertureRead word s) := by
  unfold Machine.apertureRead
  dsimp only
  split
  · split
    · split
      · exact hs.busDone _
      · exact hs.apertureFaulted _
    · exact hs.apertureFaulted _
  · exact hs.busDone _

/-- What the aperture is bound to is a record HELD by LOCAL that is not filling (R143). -/
theorem Inv.boundRecord (hs : Inv s) {i : RecIdx} {b : Buffer} (h : boundRecord s = some (i, b)) :
    ∃ k, (s.entry i).custody = .held k ∧ k.buf = b ∧ b.filling = false := by
  simp only [Machine.boundRecord, Option.bind_eq_some_iff, Option.map_eq_some_iff, Prod.mk.injEq] at h
  obtain ⟨j, hj, b', hb, rfl, rfl⟩ := h
  obtain ⟨hheld, hf, -⟩ := hs.aperture j hj
  obtain ⟨k, hk, -⟩ := heldBy_iff.1 hheld
  rw [fillingOf_held hk] at hf
  rw [hk] at hb
  cases hb
  exact ⟨k, hk, rfl, hf⟩

/-- What an accepted aperture write stores lies within an unpinned bound record's capacity (R148). -/
theorem apertureStore_some {word : BitVec 10} {data : Word} {be : BitVec 4} {i : RecIdx} {b : Buffer} {o : Nat} {bytes : List Byte}
    (h : apertureStore word data be s = some (i, b, o, bytes)) :
    boundRecord s = some (i, b) ∧ b.pins = 0 ∧ o + bytes.length ≤ b.capacity := by
  unfold apertureStore at h
  split at h
  · next i' b' k n hb hrun =>
    dsimp only at h
    split at h
    · next hok =>
      cases h
      refine ⟨hb, hok.1, ?_⟩
      rw [laneBytes, List.length_map, List.length_range]
      exact hok.2.2
    · cases h
  · cases h

theorem Inv.written (hs : Inv s) {i : RecIdx} {h : Held} (hc : (s.entry i).custody = .held h) (hp : h.buf.pins = 0)
    (hf : h.buf.filling = false) {o : Nat} {data : List Byte} (hcap : o + data.length ≤ h.buf.capacity) :
    Inv (writeRecord i h.buf o data s) := by
  obtain ⟨table, ambient, port, -⟩ := Kept.written (x := .loc) hs hc hp hf hcap
  exact (inv_iff _).2 ⟨table, ambient, port rfl⟩

theorem Inv.apertureWrite (hs : Inv s) (word : BitVec 10) (data : Word) (be : BitVec 4) : Inv (apertureWrite word data be s) := by
  unfold Machine.apertureWrite
  split
  · split
    · next hstore =>
      obtain ⟨hb, hp, hcap⟩ := apertureStore_some hstore
      obtain ⟨k, hk, rfl, hf⟩ := hs.boundRecord hb
      exact (hs.written hk hp hf hcap).busDone _
    · exact hs.apertureFaulted _
  · exact hs.busDone _

theorem Inv.argWrite (hs : Inv s) (n : Fin 4) (data : Word) (be : BitVec 4) : Inv (argWrite n data be s) := by
  unfold Machine.argWrite
  split
  · refine Inv.busDone ?_ _
    exact hs.of_ports ⟨rfl, rfl, rfl, rfl, rfl, rfl, rfl, rfl, rfl, rfl⟩ ⟨rfl, rfl, rfl, rfl, rfl⟩ hs.receiver hs.port id
  · exact hs.busFailed _

theorem Inv.busAccess (hs : Inv s) (a : BusAccess) : Inv (busAccess a s) := by
  unfold Machine.busAccess
  split
  · split
    · exact hs.apertureWrite _ _ _
    · exact hs.apertureRead _
  · split
    · split
      · unfold registerWrite
        split
        · exact hs.argWrite _ _ _
        · split
          · exact hs.takeRequest (handlerOfCode_keeps _) _ _
          · exact hs.busFailed _
        · exact hs.busFailed _
      · unfold registerRead
        split
        · exact hs.busDone _
        · exact hs.busFailed _
    · exact hs.busFailed _

/-! ## The reset lines -/

theorem abandonFrame_ne_collecting (bits : List Bool) (s : State) (b : Byte) : abandonFrame bits s ≠ .collecting b := by
  unfold abandonFrame
  split
  · simp
  · next h => exact h b

theorem entry_reset (i : RecIdx) : State.reset.entry i = { gen := 0, custody := .free } := by simp [State.entry, State.reset]

theorem chan_reset (c : ChanNo) : State.reset.chan c = Channel.reset := by simp [State.chan, State.reset]

/-- The table as device reset leaves it meets its invariants. -/
theorem tableInv_reset : TableInv.Full State.reset := by
  have free : ∀ i, (State.reset.entry i).custody = .free := fun i => by rw [entry_reset]
  have held : ∀ x i, heldBy State.reset x i = false := fun x i => heldBy_free (free i) x
  have queues : QueuesInv State.reset := fun c => by
    rw [chan_reset]
    exact ⟨List.nodup_nil, fun i => by simp [Channel.reset, free]⟩
  refine
    { freeRecords := ⟨List.nodup_finRange 128, fun i => ⟨fun _ => free i, fun _ => List.mem_finRange i⟩⟩
      segments := ?_, charges := ?_, queues := queues, outstanding := ?_, channelRanges := ?_, records := ?_, jobs := ?_
      aperture := fun i hi => by cases hi
      sessions := fun x i hi => by rw [held] at hi; cases hi
      flush := fun c _ _ => by rw [chan_reset]; rfl
      latched := ⟨by decide, fun x => by cases x <;> decide⟩ }
  · rw [segmentsInv_iff]
    refine ⟨fun g => ?_, fun i hi => absurd (free i) hi⟩
    simp only [segsOf_free (free _), List.count_nil, Finset.sum_const_zero, Nat.add_zero]
    have hsegs : State.reset.freeSegs = List.finRange 512 := by simp only [State.reset]
    rw [hsegs]
    exact List.count_eq_one_of_mem (List.nodup_finRange 512) (List.mem_finRange g)
  · intro x
    rw [chargedSegs_eq]
    simp only [chargeOn, segsOf_free (free _), List.length_nil, ite_self, Finset.sum_const_zero]
    cases x <;> rfl
  · intro c
    rw [outstanding_eq_sum queues, chan_reset]
    simp [tiedTo, free, Channel.reset]
  · exact fun c => by rw [chan_reset]; decide
  · intro i
    rw [free]
    trivial
  · exact
      { few := Nat.zero_le _
        clonesNodup := List.nodup_nil
        source := fun j hj => absurd hj List.not_mem_nil
        clone := fun j hj => absurd hj List.not_mem_nil
        attached := fun j hj => absurd hj List.not_mem_nil
        length := fun j hj => absurd hj List.not_mem_nil
        pins := fun i => pinsOf_free (free i)
        orphan := fun i x hx => by rw [held] at hx; cases hx
        progress := fun j hj => by cases hj
        idle := fun _ => rfl }

theorem inv_reset : Inv State.reset := by
  refine (inv_iff _).2 ⟨tableInv_reset, ⟨fun x _ => by cases x <;> rfl, fun _ b => ?_, ?_, ?_, fun _ => ⟨rfl, rfl⟩⟩, ?_⟩
  · have hrx : State.reset.rx = .idle := rfl
    rw [hrx]
    simp
  · exact ⟨⟨List.Pairwise.nil, fun c hc => absurd hc List.not_mem_nil⟩, fun c hc => absurd hc List.not_mem_nil⟩
  · exact ⟨Nat.le_refl 512, Nat.le_refl 512, Nat.zero_le 512⟩
  · exact ⟨fun h => (by cases h), fun _ => ⟨rfl, rfl⟩⟩

/-- From a state as device reset leaves it, the store, the pins and the lines may be otherwise, while no frame is collected. -/
theorem Inv.with_pins (hs : Inv s) (hreset : s.session = ⟨.detached, .detached⟩ ∧ s.slot = .empty) {store : Memory} {rx : Receiver}
    (hstore : Memory.wf store ∧ ∀ c ∈ store, c.1 < 65536) (hrx : ∀ b, rx ≠ .collecting b) (shifted : Option (List Bool))
    (bus : Option BusAnswer) (nRESET nHRST : Bool) (freeCount : Nat) (pending : List Instr) :
    Inv { s with store := store, rx := rx, shifted := shifted, bus := bus, nRESET := nRESET, nHRST := nHRST, freeCount := freeCount,
                 pending := pending } := by
  obtain ⟨t, a, p⟩ := (inv_iff s).1 hs
  exact (inv_iff _).2 ⟨t.congr ⟨rfl, rfl, rfl, rfl, rfl, rfl, rfl, rfl, rfl, rfl⟩,
    ⟨a.enables, fun _ => hrx, hstore, a.poolRanges, fun _ => hreset⟩, p⟩

theorem Inv.deviceResetFalls (hs : Inv s) (bits : List Bool) (held : Option HeldWrite) : Inv (deviceResetFalls bits held s) := by
  have hr := inv_reset
  have hd : State.reset.session = ⟨.detached, .detached⟩ ∧ State.reset.slot = .empty := ⟨rfl, rfl⟩
  unfold Machine.deviceResetFalls
  generalize State.reset = r at hr hd ⊢
  exact hr.with_pins hd hs.store (abandonFrame_ne_collecting bits s) s.shifted (heldFails held s.bus) false s.nHRST s.freeCount
    s.pending

/-- The draw counter is in no invariant. -/
theorem Inv.with_freeCount (hs : Inv s) (n : Nat) : Inv { s with freeCount := n } :=
  hs.of_ports ⟨rfl, rfl, rfl, rfl, rfl, rfl, rfl, rfl, rfl, rfl⟩ ⟨rfl, rfl, rfl, rfl, rfl⟩ hs.receiver hs.port id

theorem Inv.completeWrite (hs : Inv s) (held : Option HeldWrite) : Inv (completeWrite held s) := by
  cases held with
  | none => exact hs
  | some w => exact hs.takeRequest (handlerOfCode_keeps _) _ _

/-- After nHRST's fall, with the line at either level: no frame is collected, and the invariants hold. -/
theorem Inv.hostLinkReset (hs : Inv s) (bits : List Bool) :
    Inv (hostLinkReset bits s) ∧ ∀ b, (hostLinkReset bits s).rx ≠ .collecting b := by
  have hp : Inv (portReset bits s) := hs.of_ports ⟨rfl, rfl, rfl, rfl, rfl, rfl, rfl, rfl, rfl, rfl⟩ ⟨rfl, rfl, rfl, rfl, rfl⟩
    (fun _ b => abandonFrame_ne_collecting bits s b) ⟨fun h => (by cases h), fun _ => ⟨rfl, rfl⟩⟩ fun _ => rfl
  have hrx : ∀ b, (portReset bits s).rx ≠ .collecting b := abandonFrame_ne_collecting bits s
  unfold Machine.hostLinkReset
  dsimp only
  split
  · next ha =>
    have h1 : (portReset bits s).nRESET = true := by
      cases h0 : (portReset bits s).nRESET
      · rw [(hp.resetHeld h0).1] at ha
        cases ha
      · rfl
    refine ⟨hp.startSweep h1 .host, ?_⟩
    rw [(startSweep_tableOnly .host _).rx]
    exact hrx
  · exact ⟨hp, hrx⟩

/-- nHRST's level is in the receiver's invariant alone. -/
theorem Inv.with_nHRST (hs : Inv s) (level : Bool) (h : level = true ∨ ∀ b, s.rx ≠ .collecting b) :
    Inv { s with nHRST := level } := by
  refine hs.of_ports ⟨rfl, rfl, rfl, rfl, rfl, rfl, rfl, rfl, rfl, rfl⟩ ⟨rfl, rfl, rfl, rfl, rfl⟩ ?_ hs.port id
  intro hl
  rcases h with rfl | h
  · exact hs.receiver (Or.inl (hl.resolve_right (by simp)))
  · exact h

theorem Inv.nRESET_rises (hs : Inv s) : Inv { s with nRESET := true } := by
  obtain ⟨t, a, p⟩ := (inv_iff s).1 hs
  refine (inv_iff _).2 ⟨t.congr ⟨rfl, rfl, rfl, rfl, rfl, rfl, rfl, rfl, rfl, rfl⟩,
    ⟨a.enables, fun hl => ?_, a.store, a.poolRanges, fun h => by cases h⟩, p⟩
  exact a.receiver (Or.inr (hl.resolve_left (by simp)))

/-! ## Leases and copies -/

theorem Inv.tclkCycle (hs : Inv s) : Inv (tclkCycle s) := by
  unfold Machine.tclkCycle
  split
  · exact hs.of_ports ⟨rfl, rfl, rfl, rfl, rfl, rfl, rfl, rfl, rfl, rfl⟩ ⟨rfl, rfl, rfl, rfl, rfl⟩ hs.receiver hs.port id
  · exact hs

theorem tickAll_tableOnly (s : State) : TableOnly s (tickAll s) := rfl

theorem Inv.leaseTick (hs : Inv s) : Inv (leaseTick s) := by
  unfold Machine.leaseTick
  split
  · have hp : ∀ p n, Inv { s with prescaler := p, ticksDue := n } := fun p n =>
      hs.of_ports ⟨rfl, rfl, rfl, rfl, rfl, rfl, rfl, rfl, rfl, rfl⟩ ⟨rfl, rfl, rfl, rfl, rfl⟩ hs.receiver hs.port id
    split
    · exact (hp 0 s.ticksDue).of_tableOnly (tickAll_tableOnly _) (hp 0 s.ticksDue).table.ticked
    · exact (hp s.prescaler (s.ticksDue - 1)).of_tableOnly (tickAll_tableOnly _) (hp s.prescaler (s.ticksDue - 1)).table.ticked
  · exact hs

theorem Inv.leaseExpiry (hs : Inv s) (i : RecIdx) : Inv (leaseExpiry i s) := by
  unfold Machine.leaseExpiry
  split
  · next h hc =>
    split
    · next l c hl ho =>
      split
      · split
        · next h2 =>
          obtain ⟨-, -, lease⟩ := hs.table.held_from hc ho
          obtain ⟨-, hle⟩ := lease l hl
          exact hs.of_tableOnly (setHeld_tableOnly _ _ _)
            (hs.table.setLease hc ho (l := { remaining := l.remaining - 1, due := false }) (Nat.le_sub_one_of_lt h2)
              ((Nat.sub_le _ 1).trans hle))
        · exact hs.of_tableOnly (expire_tableOnly _ _ _ _) (hs.table.expired hc ho)
      · exact hs
    · exact hs
  · exact hs

theorem Inv.copyStep (hs : Inv s) : Inv (copyStep s) := by
  unfold Machine.copyStep
  split
  · exact hs
  next j rest hjobs =>
  split
  · next src dst _ _ =>
    split
    · next hlt =>
      obtain ⟨t, a, p⟩ := (inv_iff s).1 hs
      have hst := a.with_store (StoreInv.writeRun hs.store dst (segBytes * s.progress)
        (readRun s.store src (segBytes * s.progress) (min segBytes (src.length - segBytes * s.progress))))
      refine (inv_iff _).2 ⟨{ t with jobs := { t.jobs with progress := fun k hk => ?_, idle := fun h0 => ?_ } },
        ⟨hst.enables, hst.receiver, hst.store, hst.poolRanges, hst.resetHeld⟩, p⟩
      · have hk : s.jobs.head? = some k := hk
        rw [hjobs] at hk
        cases hk
        exact hlt
      · have h0 : s.jobs = [] := h0
        rw [hjobs] at h0
        cases h0
    · exact hs
  · exact hs

theorem Inv.copyCompletion (hs : Inv s) : Inv (copyCompletion s) :=
  hs.of_tableOnly (copyCompletion_tableOnly s) hs.table.completed

/-! ## Sweeps -/

theorem TableOnly.with_session (h : TableOnly s u) (session : Per Session) :
    TableOnly { s with session := session } { u with session := session } := by
  unfold TableOnly at *
  rw [h]

/-- A sweep's own change of session: while the side sweeps nRESET is high, and its enables stay clear. -/
theorem Inv.swept (hs : Inv s) {x : Side} {pos : SweepPos} (hpos : s.session.get x = .sweeping pos) {ses : Session}
    (only : TableOnly { s with session := s.session.set x ses } u) (table : TableInv.Full u) : Inv u := by
  obtain ⟨-, a, p⟩ := (inv_iff s).1 hs
  have h1 : s.nRESET = true := by
    cases h0 : s.nRESET
    · rw [(hs.resetHeld h0).1] at hpos
      cases x <;> cases hpos
    · rfl
  have ham := a.with_session h1 (session := s.session.set x ses) (enables := s.enables) fun y hy => by
    rw [Per.get_set] at hy
    by_cases hyx : y = x
    · rw [hyx]
      exact a.enables x (by rw [hpos]; simp)
    · rw [if_neg hyx] at hy
      exact a.enables y hy
  refine (inv_iff u).2 ⟨table, ham.of_tableOnly only, PortInv.of_tableOnly ?_ only⟩
  exact p

theorem sweepStep_tableOnly {x : Side} {i : RecIdx} (hi : s.session.get x = .sweeping (.next i)) :
    TableOnly { s with session := s.session.set x (.sweeping (sweepAfter i)) } (sweepStep x s) := by
  have only := sweepRecord_tableOnly x i s
  unfold sweepStep
  rw [hi]
  dsimp only
  rw [only.session]
  exact only.with_session _

theorem Inv.sweepStep (hs : Inv s) (x : Side) : Inv (sweepStep x s) := by
  cases hses : s.session.get x with
  | detached => simpa [Machine.sweepStep, hses] using hs
  | attached => simpa [Machine.sweepStep, hses] using hs
  | sweeping pos =>
    cases pos with
    | done => simpa [Machine.sweepStep, hses] using hs
    | next i => exact hs.swept hses (sweepStep_tableOnly hses) (hs.table.sweptStep x)

theorem sweepCompletion_tableOnly {x : Side} (hd : s.session.get x = .sweeping .done) :
    TableOnly { s with session := s.session.set x .detached } (sweepCompletion x s) := by
  have only := flushPurge_tableOnly x s
  unfold sweepCompletion
  rw [hd]
  dsimp only
  rw [only.session]
  exact (only.with_session _).trans (latch_tableOnly _ _ _)

theorem Inv.sweepCompletion (hs : Inv s) (x : Side) : Inv (sweepCompletion x s) := by
  cases hses : s.session.get x with
  | detached => simpa [Machine.sweepCompletion, hses] using hs
  | attached => simpa [Machine.sweepCompletion, hses] using hs
  | sweeping pos =>
    cases pos with
    | next i => simpa [Machine.sweepCompletion, hses] using hs
    | done => exact hs.swept hses (sweepCompletion_tableOnly hses) (hs.table.sweptOut x)

end Sys2Proof.Machine
end

section
/-! The step: every command answers, keeps the invariant, and leaves the queue of commands alone. -/

namespace Sys2Proof.Machine

variable {s : State}

/-! ## The invariant along a step -/

theorem Inv.shortPulse {taken untaken : State → State} (hs : Inv s) (ht : ∀ u, Inv u → Inv (taken u)) (hu : ∀ u, Inv u → Inv (untaken u)) :
    Inv (shortPulse taken untaken s) := by
  unfold Machine.shortPulse
  dsimp only
  split
  · exact ht _ (hs.with_freeCount _)
  · exact hu _ (hs.with_freeCount _)

/-! ### What the falls of the reset lines run -/

theorem exec_deviceReset_full (h : s.nRESET = true) (bits : List Bool) (held : Option HeldWrite) :
    exec (.deviceReset ⟨.full, bits, held⟩) s = .next (deviceResetFalls bits held s) := by
  simp only [exec, execDeviceReset, h, if_true]

theorem exec_deviceReset_short (h : s.nRESET = true) (bits : List Bool) (held : Option HeldWrite) :
    exec (.deviceReset ⟨.short, bits, held⟩) s =
      .next (shortPulse (fun t => { deviceResetFalls bits held t with nRESET := true }) (completeWrite held) s) := by
  simp only [exec, execDeviceReset, h, if_true]

theorem exec_deviceReset_low (h : s.nRESET = false) (p : DeviceFall) : exec (.deviceReset p) s = .next s := by
  simp only [exec, execDeviceReset, h, Bool.false_eq_true, if_false]

theorem exec_hostLinkReset_full (h : s.nHRST = true) (bits : List Bool) :
    exec (.hostLinkReset ⟨.full, bits⟩) s = .next { hostLinkReset bits s with nHRST := false } := by
  simp only [exec, execHostLinkReset, h, if_true]

theorem exec_hostLinkReset_short (h : s.nHRST = true) (bits : List Bool) :
    exec (.hostLinkReset ⟨.short, bits⟩) s = .next (shortPulse (hostLinkReset bits) id s) := by
  simp only [exec, execHostLinkReset, h, if_true]

theorem exec_hostLinkReset_low (h : s.nHRST = false) (p : LinkFall) : exec (.hostLinkReset p) s = .next s := by
  simp only [exec, execHostLinkReset, h, Bool.false_eq_true, if_false]

theorem exec_deviceReset_inv (hs : Inv s) : ∀ p : DeviceFall, ∃ t, exec (.deviceReset p) s = .next t ∧ Inv t
  | ⟨pulse, bits, held⟩ => by
    cases h : s.nRESET with
    | false => exact ⟨s, exec_deviceReset_low h _, hs⟩
    | true =>
      cases pulse with
      | full => exact ⟨_, exec_deviceReset_full h bits held, hs.deviceResetFalls bits held⟩
      | short =>
        exact ⟨_, exec_deviceReset_short h bits held,
          hs.shortPulse (fun u hu => (hu.deviceResetFalls bits held).nRESET_rises) fun u hu => hu.completeWrite held⟩

theorem exec_hostLinkReset_inv (hs : Inv s) : ∀ p : LinkFall, ∃ t, exec (.hostLinkReset p) s = .next t ∧ Inv t
  | ⟨pulse, bits⟩ => by
    cases h : s.nHRST with
    | false => exact ⟨s, exec_hostLinkReset_low h _, hs⟩
    | true =>
      cases pulse with
      | full =>
        obtain ⟨hl, hrx⟩ := hs.hostLinkReset bits
        exact ⟨_, exec_hostLinkReset_full h bits, hl.with_nHRST false (Or.inr hrx)⟩
      | short =>
        exact ⟨_, exec_hostLinkReset_short h bits, hs.shortPulse (fun u hu => (hu.hostLinkReset bits).1) fun u hu => hu⟩

theorem exec_unknownRequestCode_inv (hs : Inv s) (code : Byte) (v : Via) :
    ∃ t, exec (.unknownRequestCode code v) s = .next t ∧ Inv t := by
  cases v with
  | host bits =>
    refine ⟨_, rfl, ?_⟩
    split
    · exact hs.fetchFrame bits
    · exact hs.takeRequest (handlerOfCode_keeps code) code _
  | loc upper lanes => exact ⟨_, rfl, hs.takeRequest (handlerOfCode_keeps code) code _⟩

/-- Every command keeps the invariant. -/
theorem exec_inv (hs : Inv s) : ∀ c : Instr, ∃ t, exec c s = .next t ∧ Inv t
  | .attach _ => ⟨_, rfl, hs.takeRequest keeps_attach _ _⟩
  | .detach _ => ⟨_, rfl, hs.takeRequest keeps_detach _ _⟩
  | .evict _ => ⟨_, rfl, hs.takeRequest keeps_evict _ _⟩
  | .alloc _ => ⟨_, rfl, hs.takeRequest keeps_alloc _ _⟩
  | .retire _ => ⟨_, rfl, hs.takeRequest keeps_retire _ _⟩
  | .settag _ => ⟨_, rfl, hs.takeRequest keeps_settag _ _⟩
  | .lookup _ => ⟨_, rfl, hs.takeRequest keeps_lookup _ _⟩
  | .setlen _ => ⟨_, rfl, hs.takeRequest keeps_setlen _ _⟩
  | .write _ => ⟨_, rfl, hs.takeRequest keeps_write _ _⟩
  | .read _ => ⟨_, rfl, hs.takeRequest keeps_read _ _⟩
  | .clone _ => ⟨_, rfl, hs.takeRequest keeps_clone _ _⟩
  | .renew _ => ⟨_, rfl, hs.takeRequest keeps_renew _ _⟩
  | .post _ => ⟨_, rfl, hs.takeRequest keeps_post _ _⟩
  | .ret _ => ⟨_, rfl, hs.takeRequest keeps_ret _ _⟩
  | .claim _ => ⟨_, rfl, hs.takeRequest keeps_claim _ _⟩
  | .claimtag _ => ⟨_, rfl, hs.takeRequest keeps_claimtag _ _⟩
  | .claimany _ => ⟨_, rfl, hs.takeRequest keeps_claimany _ _⟩
  | .tally _ => ⟨_, rfl, hs.takeRequest keeps_tally _ _⟩
  | .chaninfo _ => ⟨_, rfl, hs.takeRequest keeps_chaninfo _ _⟩
  | .chancfg _ => ⟨_, rfl, hs.takeRequest keeps_chancfg _ _⟩
  | .chanon _ => ⟨_, rfl, hs.takeRequest keeps_chanon _ _⟩
  | .chanoff _ => ⟨_, rfl, hs.takeRequest keeps_chanoff _ _⟩
  | .purge _ => ⟨_, rfl, hs.takeRequest keeps_purge _ _⟩
  | .poolinfo _ => ⟨_, rfl, hs.takeRequest keeps_poolinfo _ _⟩
  | .quota _ => ⟨_, rfl, hs.takeRequest keeps_quota _ _⟩
  | .watermark _ => ⟨_, rfl, hs.takeRequest keeps_watermark _ _⟩
  | .events _ => ⟨_, rfl, hs.takeRequest keeps_events _ _⟩
  | .ack _ => ⟨_, rfl, hs.takeRequest keeps_ack _ _⟩
  | .evmask _ => ⟨_, rfl, hs.takeRequest keeps_evmask _ _⟩
  | .openRec _ => ⟨_, rfl, hs.takeRequest keeps_open _ _⟩
  | .closeAp _ => ⟨_, rfl, hs.takeRequest keeps_close _ _⟩
  | .linkcfg _ => ⟨_, rfl, hs.takeRequest keeps_linkcfg _ _⟩
  | .fetch bits => ⟨_, rfl, hs.fetchFrame bits⟩
  | .requestFrameDiscard bits => ⟨_, rfl, hs.anyFrame bits⟩
  | .argWrite n data be => ⟨_, rfl, hs.argWrite n data be⟩
  | .busError a => ⟨_, rfl, hs.busAccess a⟩
  | .apertureRead word _ => ⟨_, rfl, hs.apertureRead word⟩
  | .apertureWrite word data be => ⟨_, rfl, hs.apertureWrite word data be⟩
  | .deviceReset p => exec_deviceReset_inv hs p
  | .hostLinkReset p => exec_hostLinkReset_inv hs p
  | .leaseTick => ⟨_, rfl, hs.leaseTick⟩
  | .leaseExpiry i => ⟨_, rfl, hs.leaseExpiry i⟩
  | .copyStep => ⟨_, rfl, hs.copyStep⟩
  | .copyCompletion => ⟨_, rfl, hs.copyCompletion⟩
  | .sweepStep x => ⟨_, rfl, hs.sweepStep x⟩
  | .sweepCompletion x => ⟨_, rfl, hs.sweepCompletion x⟩
  | .tclkCycle => ⟨_, rfl, hs.tclkCycle⟩
  | .nresetRises => ⟨_, rfl, hs.nRESET_rises⟩
  | .nhrstReturningHigh => ⟨_, rfl, hs.with_nHRST true (Or.inl rfl)⟩
  | .frameBegins => ⟨_, rfl, hs.frameBegins⟩
  | .unknownRequestCode code v => exec_unknownRequestCode_inv hs code v

/-- The queue of commands is in no invariant. -/
theorem Inv.with_pending (hs : Inv s) (l : List Instr) : Inv { s with pending := l } :=
  hs.of_ports ⟨rfl, rfl, rfl, rfl, rfl, rfl, rfl, rfl, rfl, rfl⟩ ⟨rfl, rfl, rfl, rfl, rfl⟩ hs.receiver hs.port id

/-- Settles O5: a step runs one command on a state that differs in its queue of commands alone. -/
theorem stepKeepsTheInvariant : Obligations.StepKeepsTheInvariant := by
  intro s t hs ht
  unfold step at ht
  split at ht
  · cases ht
    exact hs
  · next c rest _ =>
    obtain ⟨u, hu, hinv⟩ := exec_inv (hs.with_pending rest) c
    rw [hu] at ht
    cases ht
    exact hinv

/-- Settles O4: the reset state's table is empty, and its blocks stand at their reset values. -/
theorem resetMeetsTheInvariant : Obligations.ResetMeetsTheInvariant := inv_reset

/-- Settles O1: by the queue of commands, empty or not. -/
theorem stepRunsTheFrontCommand : Obligations.StepRunsTheFrontCommand := by
  constructor
  · intro c rest s h
    simp only [step, h]
  · intro s h
    simp only [step, h]

/-! ## Totality, and the queue of commands -/

/-- Where the verdict accepts, it leaves a state with the queue of commands `l`. -/
inductive Verdict.Leaves (l : List Instr) : Verdict → Prop
  | refuse (st : Status) : Leaves l (.refuse st)
  | accept (result : List Byte) {u : State} : u.pending = l → Leaves l (.accept result u)

namespace Verdict.Leaves

variable {l : List Instr}

theorem demand {p : Prop} [Decidable p] {st : Status} {k : Verdict} (h : k.Leaves l) : (Machine.demand p st k).Leaves l := by
  unfold Machine.demand
  split
  · exact h
  · exact .refuse st

theorem demandSome {α : Type} {o : Option α} {st : Status} {k : α → Verdict} (h : ∀ a, (k a).Leaves l) :
    (Machine.demandSome o st k).Leaves l := by
  cases o
  · exact .refuse st
  · exact h _

theorem permitted {r : Req} {x : Side} {k : Verdict} (h : k.Leaves l) : (whenPermitted r x s k).Leaves l := by
  refine demand ?_
  split
  · exact .refuse _
  · exact h

theorem current {h : Half} {k : RecIdx → Custody → Verdict} (hk : ∀ i c, (k i c).Leaves l) : (withCurrent h s k).Leaves l :=
  demand (demand (hk _ _))

theorem held {x : Side} {h : Half} {k : RecIdx → Held → Verdict} (hk : ∀ i r, (k i r).Leaves l) : (withHeld x h s k).Leaves l :=
  current fun i c => by
    cases c with
    | held r => exact demand (hk i r)
    | free => exact .refuse _
    | queued q => exact .refuse _

theorem room {x : Side} {c : ChanNo} {more : Bool} {k : Verdict} (h : k.Leaves l) : (withRoom x c more s k).Leaves l :=
  demand (demand (demand (demand h)))

theorem resources {x : Side} {n : Nat} {k : RecIdx → Verdict} (h : ∀ i, (k i).Leaves l) : (withResources x n s k).Leaves l := by
  refine demand ?_
  split
  · exact .refuse _
  · exact demand (h _)

theorem claim {x : Side} {c : ChanNo} {i : RecIdx} (h : ∀ q, (claimRecord x c i q s).pending = l) : (claimFrom x c i s).Leaves l := by
  unfold claimFrom
  split
  · exact .accept _ (h _)
  · exact .refuse _

end Verdict.Leaves

theorem startSweep_pending (x : Side) (s : State) : (startSweep x s).pending = s.pending := (startSweep_tableOnly x s).pending

section
variable (x : Side) (args : List Byte) (s : State)

theorem attachRequest_pending : (attachRequest x args s).Leaves s.pending := by
  refine Verdict.Leaves.permitted (.accept _ ?_)
  split <;> rfl

theorem lookupRequest_pending : (lookupRequest x args s).Leaves s.pending := by
  refine Verdict.Leaves.permitted (.current fun i c => ?_)
  cases c with
  | free => exact .refuse _
  | held h => exact .accept _ rfl
  | queued q => exact .accept _ rfl

end

/-- No accepted request touches the queue of commands. -/
theorem handlerOf_pending (x : Side) (args : List Byte) (s : State) :
    ∀ r : Req, (handlerOf r x args s).Leaves s.pending := by
  intro r
  cases r
  all_goals
    dsimp only [handlerOf, attachRequest, detachRequest, evictRequest, allocRequest, retireRequest, settagRequest, setlenRequest,
      writeRequest, readRequest, cloneRequest, renewRequest, postRequest, returnRequest, claimRequest, claimtagRequest,
      claimanyRequest, tallyRequest, chaninfoRequest, chancfgRequest, chanonRequest, chanoffRequest, purgeRequest,
      poolinfoRequest, quotaRequest, watermarkRequest, eventsRequest, ackRequest, evmaskRequest, openRequest, closeRequest,
      linkcfgRequest, withChan, withClaimable]
  case attach => exact attachRequest_pending x args s
  case detach => exact .permitted (.accept _ (startSweep_pending x s))
  case evict => exact .permitted (.demand (.accept _ (startSweep_pending .host s)))
  case alloc => exact .permitted (.demand (.resources fun i => .accept _ (takeRecord_tableOnly i x _ _ _ _ s).pending))
  case retire => exact .permitted (.held fun i _ => .demand (.accept _ (retirePath_tableOnly i s).pending))
  case settag => exact .permitted (.held fun _ _ => .accept _ rfl)
  case lookup => exact lookupRequest_pending x args s
  case setlen => exact .permitted (.demand (.held fun _ _ => .demand (.demand (.accept _ rfl))))
  case write => exact .permitted (.demand (.held fun _ _ => .demand (.demand (.demand (.accept _ rfl)))))
  case read => exact .permitted (.demand (.held fun _ _ => .demand (.demand (.accept _ rfl))))
  case clone => exact .permitted (.held fun i h => .demand (.demand (.resources fun c => .accept _ (makeClone_tableOnly x i c h.buf s).pending)))
  case renew => exact .permitted (.held fun _ _ => .demandSome fun _ => .accept _ rfl)
  case post => exact .permitted (.demandSome fun c => .demandSome fun reply => .held fun i h => .demand
      (.room (.accept _ (placeOn_tableOnly i h c reply s).pending)))
  case ret => exact .permitted (.held fun i h => .demand (.demandSome fun r => .room (.accept _ (placeOn_tableOnly i h r none s).pending)))
  case claim => exact .permitted (.demandSome fun _ => .demand (.demandSome fun _ => .claim fun _ => rfl))
  case claimtag => exact .permitted (.demandSome fun _ => .demand (.demandSome fun _ => .claim fun _ => rfl))
  case claimany => exact .permitted (.demandSome fun _ => .demandSome fun _ => .claim fun _ => rfl)
  case tally => exact .permitted (.demandSome fun _ => .demand (.accept _ rfl))
  case chaninfo => exact .permitted (.demandSome fun _ => .accept _ rfl)
  case chancfg => exact .permitted (.demandSome fun _ => .demandSome fun _ => .demand (.demandSome fun _ => .demand (.accept _ rfl)))
  case chanon => exact .permitted (.demandSome fun _ => .demand (.accept _ rfl))
  case chanoff => exact .permitted (.demandSome fun _ => .demand (.accept _ rfl))
  case purge => exact .permitted (.demandSome fun c => .accept _ (purgeQueue_tableOnly c s).pending)
  case poolinfo => exact .permitted (.accept _ rfl)
  case quota => exact .permitted (.demandSome fun _ => .demand (.accept _ rfl))
  case watermark => exact .permitted (.demand (.accept _ rfl))
  case events => exact .permitted (.accept _ rfl)
  case ack => exact .permitted (.demand (.accept _ rfl))
  case evmask => exact .permitted (.demand (.accept _ rfl))
  case openRec => exact .permitted (.held fun _ _ => .demand (.accept _ rfl))
  case closeAp => exact .permitted (.accept _ rfl)
  case linkcfg => exact .permitted (.demandSome fun _ => .accept _ rfl)

theorem answered_pending (v : Via) (code : Byte) (st : Status) (result : List Byte) (s : State) :
    (answered v code st result s).pending = s.pending := by cases v <;> rfl

theorem takeRequest_pending {code : Byte} {h : Handler} (hh : ∀ x args s, (h x args s).Leaves s.pending)
    (v : Via) (s : State) : (takeRequest code h v s).pending = s.pending := by
  rcases takeRequest_cases code h v s with he | ⟨st, he⟩ | ⟨args, result, u, -, ha, he⟩
  · rw [he, entered_pending]
  · rw [he, answered_pending, entered_pending]
  · have hu := hh v.side args (entered v code s)
    rw [ha] at hu
    cases hu with
    | accept _ hu => rw [he, answered_pending, hu, entered_pending]

theorem handlerOfCode_pending (code : Byte) (x : Side) (args : List Byte) (s : State) :
    (handlerOfCode code x args s).Leaves s.pending := by
  unfold handlerOfCode
  cases reqOfCode code with
  | none => exact .refuse _
  | some r => exact handlerOf_pending x args s r

/-- The request of a code byte leaves the queue of commands alone. -/
theorem takeCode_pending (code : Byte) (v : Via) (s : State) : (takeRequest code (handlerOfCode code) v s).pending = s.pending :=
  takeRequest_pending (handlerOfCode_pending code) v s

theorem closeFrame_pending (edges : Nat) (bytes : List Byte) (s : State) : (closeFrame edges bytes s).pending = s.pending := by
  rw [closeFrame_eq]

theorem fetchFrame_pending (bits : List Bool) (s : State) : (fetchFrame bits s).pending = s.pending := by
  unfold fetchFrame
  dsimp only
  split <;> exact closeFrame_pending _ _ s

theorem anyFrame_pending (bits : List Bool) (s : State) : (anyFrame bits s).pending = s.pending := by
  unfold anyFrame
  split
  · exact closeFrame_pending _ _ s
  · split
    · exact fetchFrame_pending _ s
    · exact takeCode_pending _ _ s

theorem argWrite_pending (n : Fin 4) (data : Word) (be : BitVec 4) (s : State) : (argWrite n data be s).pending = s.pending := by
  unfold argWrite
  split <;> rfl

theorem apertureRead_pending (word : BitVec 10) (s : State) : (apertureRead word s).pending = s.pending := by
  unfold apertureRead
  dsimp only
  split
  · split
    · split <;> rfl
    · rfl
  · rfl

theorem apertureWrite_pending (word : BitVec 10) (data : Word) (be : BitVec 4) (s : State) :
    (apertureWrite word data be s).pending = s.pending := by
  unfold apertureWrite
  split
  · split <;> rfl
  · rfl

theorem busAccess_pending (a : BusAccess) (s : State) : (busAccess a s).pending = s.pending := by
  unfold busAccess
  split
  · split
    · exact apertureWrite_pending _ _ _ s
    · exact apertureRead_pending _ s
  · split
    · split
      · unfold registerWrite
        split
        · exact argWrite_pending _ _ _ s
        · split
          · exact takeCode_pending _ _ s
          · rfl
        · rfl
      · unfold registerRead
        split <;> rfl
    · rfl

theorem deviceResetFalls_pending (bits : List Bool) (held : Option HeldWrite) (s : State) :
    (deviceResetFalls bits held s).pending = s.pending := by
  unfold deviceResetFalls
  dsimp only

theorem hostLinkReset_pending (bits : List Bool) (s : State) : (hostLinkReset bits s).pending = s.pending := by
  unfold hostLinkReset
  dsimp only
  split
  · exact startSweep_pending .host _
  · rfl

theorem completeWrite_pending (held : Option HeldWrite) (s : State) : (completeWrite held s).pending = s.pending := by
  cases held with
  | none => rfl
  | some w => exact takeCode_pending _ _ s

theorem shortPulse_pending {taken untaken : State → State} (ht : ∀ u, (taken u).pending = u.pending)
    (hu : ∀ u, (untaken u).pending = u.pending) (s : State) : (shortPulse taken untaken s).pending = s.pending := by
  unfold shortPulse
  dsimp only
  split
  · exact ht _
  · exact hu _

theorem leaseExpiry_pending (i : RecIdx) (s : State) : (leaseExpiry i s).pending = s.pending := by
  unfold leaseExpiry
  split
  · split
    · split
      · split
        · rfl
        · exact (expire_tableOnly _ _ _ _).pending
      · rfl
    · rfl
  · rfl

theorem leaseTick_pending (s : State) : (leaseTick s).pending = s.pending := by
  unfold leaseTick
  split
  · split <;> rfl
  · rfl

theorem copyStep_pending (s : State) : (copyStep s).pending = s.pending := by
  unfold copyStep
  split
  · rfl
  · split
    · split <;> rfl
    · rfl

theorem sweepStep_pending (x : Side) (s : State) : (sweepStep x s).pending = s.pending := by
  unfold sweepStep
  split
  · exact (sweepRecord_tableOnly x _ s).pending
  · rfl

theorem sweepCompletion_pending (x : Side) (s : State) : (sweepCompletion x s).pending = s.pending := by
  unfold sweepCompletion
  split
  · dsimp only [latch]
    exact (flushPurge_tableOnly x s).pending
  · rfl

theorem exec_deviceReset_pending (s : State) : ∀ p : DeviceFall, ∃ t, exec (.deviceReset p) s = .next t ∧ t.pending = s.pending
  | ⟨pulse, bits, held⟩ => by
    cases h : s.nRESET with
    | false => exact ⟨s, exec_deviceReset_low h _, rfl⟩
    | true =>
      cases pulse with
      | full => exact ⟨_, exec_deviceReset_full h bits held, deviceResetFalls_pending bits held s⟩
      | short =>
        exact ⟨_, exec_deviceReset_short h bits held,
          shortPulse_pending (taken := fun t => { deviceResetFalls bits held t with nRESET := true })
            (deviceResetFalls_pending bits held) (completeWrite_pending held) s⟩

theorem exec_hostLinkReset_pending (s : State) : ∀ p : LinkFall, ∃ t, exec (.hostLinkReset p) s = .next t ∧ t.pending = s.pending
  | ⟨pulse, bits⟩ => by
    cases h : s.nHRST with
    | false => exact ⟨s, exec_hostLinkReset_low h _, rfl⟩
    | true =>
      cases pulse with
      | full => exact ⟨_, exec_hostLinkReset_full h bits, hostLinkReset_pending bits s⟩
      | short => exact ⟨_, exec_hostLinkReset_short h bits, shortPulse_pending (hostLinkReset_pending bits) (fun _ => rfl) s⟩

theorem exec_unknownRequestCode_pending (code : Byte) (v : Via) (s : State) :
    ∃ t, exec (.unknownRequestCode code v) s = .next t ∧ t.pending = s.pending := by
  cases v with
  | host bits =>
    refine ⟨_, rfl, ?_⟩
    split
    · exact fetchFrame_pending bits s
    · exact takeCode_pending code _ s
  | loc upper lanes => exact ⟨_, rfl, takeCode_pending code _ s⟩

/-- Taking a request of the table leaves the queue of commands alone. -/
theorem takeReq_pending (r : Req) (v : Via) (s : State) : (takeRequest (reqCode r) (handlerOf r) v s).pending = s.pending :=
  takeRequest_pending (fun x args s => handlerOf_pending x args s r) v s

/-- Settles O2: command by command. -/
theorem everyCommandAnswersNext : Obligations.EveryCommandAnswersNext
  | .attach v, s => ⟨_, rfl, takeReq_pending .attach v s⟩
  | .detach v, s => ⟨_, rfl, takeReq_pending .detach v s⟩
  | .evict v, s => ⟨_, rfl, takeReq_pending .evict v s⟩
  | .alloc v, s => ⟨_, rfl, takeReq_pending .alloc v s⟩
  | .retire v, s => ⟨_, rfl, takeReq_pending .retire v s⟩
  | .settag v, s => ⟨_, rfl, takeReq_pending .settag v s⟩
  | .lookup v, s => ⟨_, rfl, takeReq_pending .lookup v s⟩
  | .setlen v, s => ⟨_, rfl, takeReq_pending .setlen v s⟩
  | .write v, s => ⟨_, rfl, takeReq_pending .write v s⟩
  | .read v, s => ⟨_, rfl, takeReq_pending .read v s⟩
  | .clone v, s => ⟨_, rfl, takeReq_pending .clone v s⟩
  | .renew v, s => ⟨_, rfl, takeReq_pending .renew v s⟩
  | .post v, s => ⟨_, rfl, takeReq_pending .post v s⟩
  | .ret v, s => ⟨_, rfl, takeReq_pending .ret v s⟩
  | .claim v, s => ⟨_, rfl, takeReq_pending .claim v s⟩
  | .claimtag v, s => ⟨_, rfl, takeReq_pending .claimtag v s⟩
  | .claimany v, s => ⟨_, rfl, takeReq_pending .claimany v s⟩
  | .tally v, s => ⟨_, rfl, takeReq_pending .tally v s⟩
  | .chaninfo v, s => ⟨_, rfl, takeReq_pending .chaninfo v s⟩
  | .chancfg v, s => ⟨_, rfl, takeReq_pending .chancfg v s⟩
  | .chanon v, s => ⟨_, rfl, takeReq_pending .chanon v s⟩
  | .chanoff v, s => ⟨_, rfl, takeReq_pending .chanoff v s⟩
  | .purge v, s => ⟨_, rfl, takeReq_pending .purge v s⟩
  | .poolinfo v, s => ⟨_, rfl, takeReq_pending .poolinfo v s⟩
  | .quota v, s => ⟨_, rfl, takeReq_pending .quota v s⟩
  | .watermark v, s => ⟨_, rfl, takeReq_pending .watermark v s⟩
  | .events v, s => ⟨_, rfl, takeReq_pending .events v s⟩
  | .ack v, s => ⟨_, rfl, takeReq_pending .ack v s⟩
  | .evmask v, s => ⟨_, rfl, takeReq_pending .evmask v s⟩
  | .openRec v, s => ⟨_, rfl, takeReq_pending .openRec v s⟩
  | .closeAp v, s => ⟨_, rfl, takeReq_pending .closeAp v s⟩
  | .linkcfg v, s => ⟨_, rfl, takeReq_pending .linkcfg v s⟩
  | .fetch bits, s => ⟨_, rfl, fetchFrame_pending bits s⟩
  | .requestFrameDiscard bits, s => ⟨_, rfl, anyFrame_pending bits s⟩
  | .argWrite n data be, s => ⟨_, rfl, argWrite_pending n data be s⟩
  | .busError a, s => ⟨_, rfl, busAccess_pending a s⟩
  | .apertureRead word _, s => ⟨_, rfl, apertureRead_pending word s⟩
  | .apertureWrite word data be, s => ⟨_, rfl, apertureWrite_pending word data be s⟩
  | .deviceReset p, s => exec_deviceReset_pending s p
  | .hostLinkReset p, s => exec_hostLinkReset_pending s p
  | .leaseTick, s => ⟨_, rfl, leaseTick_pending s⟩
  | .leaseExpiry i, s => ⟨_, rfl, leaseExpiry_pending i s⟩
  | .copyStep, s => ⟨_, rfl, copyStep_pending s⟩
  | .copyCompletion, s => ⟨_, rfl, (copyCompletion_tableOnly s).pending⟩
  | .sweepStep x, s => ⟨_, rfl, sweepStep_pending x s⟩
  | .sweepCompletion x, s => ⟨_, rfl, sweepCompletion_pending x s⟩
  | .tclkCycle, s => ⟨_, rfl, by unfold tclkCycle; split <;> rfl⟩
  | .nresetRises, _ => ⟨_, rfl, rfl⟩
  | .nhrstReturningHigh, _ => ⟨_, rfl, rfl⟩
  | .frameBegins, s => ⟨_, rfl, by unfold frameBegins; split <;> rfl⟩
  | .unknownRequestCode code v, s => exec_unknownRequestCode_pending code v s

end Sys2Proof.Machine
end

section
/-! The check order: what each step of it refuses, and what an accepted request of the Custody Table does. -/

namespace Sys2Proof.Machine

variable {r : Req} {v : Via} {x : Side} {args : List Byte} {s : State} {st : Status}

/-! ## Where a check refuses -/

theorem demand_refuse {p : Prop} [Decidable p] {k : Verdict} (h : p → k = .refuse st) : demand p st k = .refuse st := by
  by_cases hp : p
  · rw [demand_pos hp, h hp]
  · exact demand_neg hp

theorem demandSome_refuse {α : Type} {o : Option α} {k : α → Verdict} (h : ∀ a, o = some a → k a = .refuse st) :
    demandSome o st k = .refuse st := by
  cases o with
  | none => rfl
  | some a => exact h a rfl

/-- Every handler begins with steps 1 and 2 of the check order (R12). -/
theorem handlerOf_permitted (r : Req) (x : Side) (args : List Byte) (s : State) :
    ∃ k, handlerOf r x args s = whenPermitted r x s k := by
  cases r <;> exact ⟨_, rfl⟩

theorem whenPermitted_closed {k : Verdict} (h : reqOpenTo x r = false) : whenPermitted r x s k = .refuse .badRequest :=
  demand_neg (by simp [h])

theorem whenPermitted_session {k : Verdict} (ho : reqOpenTo x r = true) (h : sessionCheck r (s.session.get x) = some st) :
    whenPermitted r x s k = .refuse st := by
  rw [whenPermitted, demand_pos ho, h]

theorem whenPermitted_pass {k : Verdict} (ho : reqOpenTo x r = true) (h : sessionCheck r (s.session.get x) = none) :
    whenPermitted r x s k = k := by
  rw [whenPermitted, demand_pos ho, h]

/-! ## The answer of a refusal (R17) -/

/-- A HOST request that reaches the check order came in a frame that was being collected, over a slot that is not READY. -/
theorem presents_host {bits : List Bool} {code : Byte} (h : present (.host bits) code s = .carried args) :
    (∃ status, rxNow s = .collecting status) ∧ ∀ a, s.slot ≠ .ready a := by
  unfold present at h
  dsimp only at h
  split at h
  · next ht =>
    constructor
    · unfold frameTaken at ht
      split at ht
      · exact ⟨_, ‹_›⟩
      · cases ht
    · intro a ha
      rw [ha] at h
      cases h
  · cases h

theorem presents_loc {upper : BitVec 24} {lanes : BitVec 3} {code : Byte} (h : present (.loc upper lanes) code s = .carried args) :
    s.nRESET = true := by
  unfold present at h
  dsimp only at h
  split at h
  · assumption
  · cases h

/-- The entry of a HOST request that reaches the check order: its frame ends, and the status byte was shifted out. -/
theorem entered_host {bits : List Bool} {code status : Byte} (hrx : rxNow s = .collecting status) (hslot : ∀ a, s.slot ≠ .ready a) :
    entered (.host bits) code s = { s with rx := .idle, shifted := some (shiftOut (8 + bits.length) [status]) } := by
  have ht : frameTaken s = true := by rw [frameTaken, hrx]
  unfold entered
  simp only [ht, if_true, closeFrame, hrx]

theorem entered_loc {upper : BitVec 24} {lanes : BitVec 3} {code : Byte} (h : s.nRESET = true) :
    entered (.loc upper lanes) code s = { s with req := code, bus := some { lerr := false, data := none } } := by
  simp only [entered, h, if_true]

theorem resWord_nil (k : Nat) : resWord [] k = 0 := by
  unfold resWord
  simp only [List.getD_nil]
  decide

/-- Settles O16: the refusal's next state is the port's entry and its answer, for each port. -/
theorem refusedRequestChangesOnlyItsPort : Obligations.RefusedRequestChangesOnlyItsPort := by
  intro r v args s st hp hh
  have he := exec_refuse hp hh
  cases v with
  | host bits =>
    obtain ⟨⟨status, hrx⟩, hslot⟩ := presents_host hp
    refine ⟨status, hrx, ?_⟩
    rw [he, refusedWith, entered_host hrx hslot]
    rfl
  | loc upper lanes =>
    dsimp only
    rw [he, refusedWith, entered_loc (presents_loc hp)]
    simp only [answered, resWord_nil]

/-! ## Step 1 (R13) -/

theorem reqOpenTo_false_iff (r : Req) (x : Side) : reqOpenTo x r = false ↔
    (x = .host ∧ r ∈ [Req.evict, .openRec, .closeAp, .chancfg, .chanon, .chanoff, .purge, .quota, .watermark] ∨
      x = .loc ∧ r ∈ [Req.write, .read, .linkcfg]) := by
  cases x <;> cases r <;> decide

theorem handlerOfCode_unknown {code : Byte} (h : reqOfCode code = none) : handlerOfCode code = unknownRequest := by
  rw [handlerOfCode, h]

/-- A code that is no request code takes the request that is always refused. -/
theorem exec_unknownCode {code : Byte} (h : unknownCode code v = true) :
    exec (.unknownRequestCode code v) s = .next (takeRequest code unknownRequest v s) := by
  cases v with
  | host bits =>
    simp only [unknownCode, Bool.and_eq_true, Option.isNone_iff_eq_none, bne_iff_ne] at h
    obtain ⟨hnone, hfetch⟩ := h
    simp only [exec, execUnknownRequestCode, if_neg hfetch, handlerOfCode_unknown hnone]
  | loc upper lanes =>
    simp only [unknownCode, Option.isNone_iff_eq_none] at h
    simp only [exec, execUnknownRequestCode, handlerOfCode_unknown h]

/-- Settles O18: a closed request stops at step 1 of its handler, an unknown code has the handler that refuses. -/
theorem unpermittedCodesAreBadRequest : Obligations.UnpermittedCodesAreBadRequest := by
  refine ⟨fun r v args s hp hr => ?_, fun code v args s hp hc => ?_, fun _ _ => rfl, reqOpenTo_false_iff⟩
  · obtain ⟨k, hk⟩ := handlerOf_permitted r v.side args (entered v (reqCode r) s)
    exact exec_refuse hp (hk.trans (whenPermitted_closed ((reqOpenTo_false_iff r v.side).2 hr)))
  · rw [exec_unknownCode hc, takeRequest_refuse hp rfl]

/-! ## Step 2 (R14) -/

theorem sessionCheck_notAttached {ses : Session} (h1 : r ≠ .attach) (h2 : r ≠ .linkcfg) (h : ses ≠ .attached) :
    sessionCheck r ses = some .notAttached := by
  cases ses with
  | attached => exact absurd rfl h
  | detached => cases r <;> simp_all [sessionCheck]
  | sweeping p => cases r <;> simp_all [sessionCheck]

theorem sessionCheck_pass {ses : Session} (h : ses = .attached ∨ r = .linkcfg ∨ (r = .attach ∧ ses = .detached)) :
    sessionCheck r ses = none := by
  rcases h with rfl | rfl | ⟨rfl, rfl⟩
  · exact sessionCheck_attached r
  · rfl
  · rfl

/-- Settles O19: by the table of the session check. -/
theorem sessionCheckAnswers : Obligations.SessionCheckAnswers := by
  refine ⟨fun r v args s hp ho => ⟨fun h1 h2 hses => ?_, fun p hr hses => ?_⟩, fun r x s k ho hses =>
    whenPermitted_pass ho (sessionCheck_pass hses)⟩
  · obtain ⟨k, hk⟩ := handlerOf_permitted r v.side args (entered v (reqCode r) s)
    refine exec_refuse hp (hk.trans (whenPermitted_session ho ?_))
    rw [entered_session]
    exact sessionCheck_notAttached h1 h2 hses
  · subst hr
    obtain ⟨k, hk⟩ := handlerOf_permitted .attach v.side args (entered v (reqCode .attach) s)
    refine exec_refuse hp (hk.trans (whenPermitted_session ho ?_))
    rw [entered_session, hses]
    rfl

/-! ## Step 3 (R12) -/

theorem chanOfByte_le {b : Byte} {c : ChanNo} (h : chanOfByte b = some c) : b.toNat ≤ 11 := by
  unfold chanOfByte at h
  split at h
  · omega
  · cases h

theorem chanOfByte_of_le {b : Byte} (h : b.toNat ≤ 11) : ∃ c, chanOfByte b = some c :=
  ⟨_, dif_pos (Nat.lt_succ_of_le h)⟩

theorem replyOfByte_le {b : Byte} {c : Option ChanNo} (h : replyOfByte b = some c) : b.toNat ≤ 11 ∨ b = 0xFF := by
  unfold replyOfByte at h
  split at h
  · exact Or.inr ‹_›
  · obtain ⟨c, hc, -⟩ := Option.map_eq_some_iff.1 h
    exact Or.inl (chanOfByte_le hc)

theorem replyOfByte_of_le {b : Byte} (h : b.toNat ≤ 11 ∨ b = 0xFF) : ∃ c, replyOfByte b = some c := by
  unfold replyOfByte
  split
  · exact ⟨_, rfl⟩
  · next hb =>
    obtain ⟨c, hc⟩ := chanOfByte_of_le (h.resolve_right hb)
    exact ⟨some c, by rw [hc]; rfl⟩

theorem sideOfByte_le {b : Byte} {y : Side} (h : sideOfByte b = some y) : b.toNat ≤ 1 := by
  unfold sideOfByte at h
  split at h
  · next hb => rw [hb]; decide
  · split at h
    · next hb => rw [hb]; decide
    · cases h

theorem flagOfByte_le {b : Byte} {m : Bool} (h : flagOfByte b = some m) : b.toNat ≤ 1 := by
  unfold flagOfByte at h
  split at h
  · next hb => rw [hb]; decide
  · split at h
    · next hb => rw [hb]; decide
    · cases h

theorem maskInRange_iff (m : Half) : maskInRange m = true ↔ m.extractLsb' 10 6 = 0 := by
  simp only [maskInRange, beq_iff_eq]

/-- Step 3 refuses with RANGE: an argument out of range stops the handler there, whatever the rest of the state. -/
theorem handlerOf_range (ho : reqOpenTo x r = true) (hses : s.session.get x = .attached ∨ r = .linkcfg)
    (hr : ¬ArgsInRange r args) : handlerOf r x args s = .refuse .range := by
  have pass : ∀ k, whenPermitted r x s k = k := fun k => whenPermitted_pass ho (sessionCheck_pass (hses.imp_right Or.inl))
  cases r with
  | attach | detach | evict | retire | settag | lookup | clone | renew | ret | claimany | poolinfo | events | openRec | closeAp =>
    exact absurd trivial hr
  | alloc => exact (pass _).trans (demand_neg hr)
  | setlen => exact (pass _).trans (demand_neg hr)
  | write => exact (pass _).trans (demand_neg hr)
  | read => exact (pass _).trans (demand_neg hr)
  | watermark => exact (pass _).trans (demand_neg hr)
  | ack => exact (pass _).trans (demand_neg fun h => hr ((maskInRange_iff _).1 h))
  | evmask => exact (pass _).trans (demand_neg fun h => hr ((maskInRange_iff _).1 h))
  | post =>
    exact (pass _).trans (demandSome_refuse fun c hc => demandSome_refuse fun p hp =>
      absurd ⟨chanOfByte_le hc, replyOfByte_le hp⟩ hr)
  | claim => exact (pass _).trans (demandSome_refuse fun c hc => absurd (chanOfByte_le hc) hr)
  | claimtag => exact (pass _).trans (demandSome_refuse fun c hc => absurd (chanOfByte_le hc) hr)
  | tally => exact (pass _).trans (demandSome_refuse fun c hc => absurd (chanOfByte_le hc) hr)
  | chaninfo => exact (pass _).trans (demandSome_refuse fun c hc => absurd (chanOfByte_le hc) hr)
  | chanon => exact (pass _).trans (demandSome_refuse fun c hc => absurd (chanOfByte_le hc) hr)
  | chanoff => exact (pass _).trans (demandSome_refuse fun c hc => absurd (chanOfByte_le hc) hr)
  | purge => exact (pass _).trans (demandSome_refuse fun c hc => absurd (chanOfByte_le hc) hr)
  | chancfg =>
    refine (pass _).trans (demandSome_refuse fun c hc => demandSome_refuse fun y hy => demand_refuse ?_)
    rintro ⟨⟨d1, d32⟩, hp, hl⟩
    exact demandSome_refuse fun m hm =>
      absurd ⟨chanOfByte_le hc, sideOfByte_le hy, d1, d32, hp, hl, flagOfByte_le hm⟩ hr
  | quota =>
    exact (pass _).trans (demandSome_refuse fun y hy => demand_refuse fun hq => absurd ⟨sideOfByte_le hy, hq⟩ hr)
  | linkcfg => exact (pass _).trans (demandSome_refuse fun m hm => absurd (flagOfByte_le hm) hr)

/-- Settles O20: from step 3 of each handler. -/
theorem argumentsOutOfRangeAreRange : Obligations.ArgumentsOutOfRangeAreRange := by
  intro r v args s hp ho hses hr
  exact exec_refuse hp (handlerOf_range ho (by rwa [entered_session]) hr)

/-! ## Steps 4 and 5 (R8, R15) -/

section
variable {h : Half} {k : RecIdx → Custody → Verdict} {kh : RecIdx → Held → Verdict}

theorem withCurrent_stale (hg : handleGen h ≠ (s.entry (handleIdx h)).gen) : withCurrent h s k = .refuse .stale :=
  demand_neg hg

theorem withCurrent_free (hg : handleGen h = (s.entry (handleIdx h)).gen) (hc : (s.entry (handleIdx h)).custody = .free) :
    withCurrent h s k = .refuse .badHandle := by
  rw [withCurrent]
  exact (demand_pos hg).trans (demand_neg (not_not_intro hc))

theorem withHeld_queued {q : Queued} (hg : handleGen h = (s.entry (handleIdx h)).gen)
    (hc : (s.entry (handleIdx h)).custody = .queued q) : withHeld x h s kh = .refuse .notHolder := by
  rw [withHeld, withCurrent_of hg (by simp [hc]), hc]

theorem withHeld_other {y : Held} (hg : handleGen h = (s.entry (handleIdx h)).gen)
    (hc : (s.entry (handleIdx h)).custody = .held y) (hy : y.holder ≠ x) : withHeld x h s kh = .refuse .notHolder := by
  rw [withHeld, withCurrent_of hg (by simp [hc]), hc]
  exact demand_neg hy

end

/-- POST's two channel arguments, both in range, are decoded before its handle check. -/
theorem post_channels {b b' : Byte} {c : ChanNo} {p : Option ChanNo} (hc : chanOfByte b = some c) (hp : replyOfByte b' = some p)
    (k : ChanNo → Option ChanNo → Verdict) : (withChan b fun d => demandSome (replyOfByte b') .range (k d)) = k c p := by
  rw [withChan, hc, demandSome_some, hp, demandSome_some]

/-- The requests that name a record in their first argument (R8). -/
def namesRecord : List Req := [.retire, .settag, .lookup, .setlen, .write, .read, .clone, .renew, .post, .ret, .openRec]

/-- Past steps 1 to 3 a request that names a record goes on to the handle check. -/
theorem handlerOf_withCurrent (ha : Admitted r x s) (hr : ArgsInRange r args) (hm : r ∈ namesRecord) :
    ∃ k, handlerOf r x args s = withCurrent (argHalf args 0) s k ∧
      (r ≠ .lookup → ∃ kh, handlerOf r x args s = withHeld x (argHalf args 0) s kh) := by
  obtain ⟨ho, hses⟩ := ha
  have pass : ∀ k, whenPermitted r x s k = k := fun k => whenPermitted_of ho hses
  have held : ∀ kh, handlerOf r x args s = withHeld x (argHalf args 0) s kh →
      ∃ k, handlerOf r x args s = withCurrent (argHalf args 0) s k ∧
        (r ≠ .lookup → ∃ kh, handlerOf r x args s = withHeld x (argHalf args 0) s kh) :=
    fun kh hk => ⟨_, hk, fun _ => ⟨kh, hk⟩⟩
  simp only [namesRecord, List.mem_cons, List.not_mem_nil, or_false] at hm
  rcases hm with rfl | rfl | rfl | rfl | rfl | rfl | rfl | rfl | rfl | rfl | rfl
  · exact held _ (pass _)
  · exact held _ (pass _)
  · exact ⟨_, pass _, fun h => absurd rfl h⟩
  · exact held _ ((pass _).trans (demand_pos hr))
  · exact held _ ((pass _).trans (demand_pos hr))
  · exact held _ ((pass _).trans (demand_pos hr))
  · exact held _ (pass _)
  · exact held _ (pass _)
  · obtain ⟨c, hc⟩ := chanOfByte_of_le hr.1
    obtain ⟨p, hp⟩ := replyOfByte_of_le hr.2
    exact held _ ((pass _).trans (post_channels hc hp _))
  · exact held _ (pass _)
  · exact held _ (pass _)

/-- Settles O21: from the handle check and the custody check. -/
theorem handleAndHolderChecks : Obligations.HandleAndHolderChecks := by
  intro r v args s hp ha hr hm
  obtain ⟨k, hk, hheld⟩ := handlerOf_withCurrent (s := entered v (reqCode r) s) (by rwa [Admitted, entered_session]) hr hm
  refine ⟨fun hg => ?_, fun hg hc => ?_, fun hl hg hq => ?_, fun hl hg hy => ?_⟩
  · exact exec_refuse hp (hk.trans (withCurrent_stale (by rwa [entered_entry])))
  · exact exec_refuse hp (hk.trans (withCurrent_free (by rwa [entered_entry]) (by rwa [entered_entry])))
  · obtain ⟨q, hc⟩ := hq
    obtain ⟨kh, hkh⟩ := hheld hl
    exact exec_refuse hp (hkh.trans (withHeld_queued (q := q) (by rwa [entered_entry]) (by rwa [entered_entry])))
  · obtain ⟨y, hc, hne⟩ := hy
    obtain ⟨kh, hkh⟩ := hheld hl
    exact exec_refuse hp (hkh.trans (withHeld_other (y := y) (by rwa [entered_entry]) (by rwa [entered_entry]) hne))

end Sys2Proof.Machine
end

section
/-! What an accepted request of the Custody Table does. -/

namespace Sys2Proof.Machine

variable {x : Side} {s : State} {i : RecIdx}

/-! ## ALLOC (R18, R19) -/

section
variable {n : Nat} {k : RecIdx → Verdict}

theorem withResources_overQuota (h : s.quota.get x < s.charge.get x + n) : withResources x n s k = .refuse .overQuota :=
  demand_neg (Nat.not_le_of_lt h)

theorem withResources_noRecord (hq : s.charge.get x + n ≤ s.quota.get x) (h : s.freeRecs = []) :
    withResources x n s k = .refuse .noRecord := by
  rw [withResources, demand_pos hq, h]

theorem withResources_noSpace (hq : s.charge.get x + n ≤ s.quota.get x) (hf : s.freeRecs ≠ []) (h : s.freeSegs.length < n) :
    withResources x n s k = .refuse .noSpace := by
  obtain ⟨i, rest, hi⟩ := List.exists_cons_of_ne_nil hf
  rw [withResources, demand_pos hq, hi]
  exact demand_neg (Nat.not_le_of_lt h)

theorem withResources_of {i : RecIdx} {rest : List RecIdx} (hq : s.charge.get x + n ≤ s.quota.get x) (hi : s.freeRecs = i :: rest)
    (h : n ≤ s.freeSegs.length) : withResources x n s k = k i := by
  rw [withResources, demand_pos hq, hi]
  exact demand_pos h

end

/-- An ALLOC that passes steps 1 to 3 goes on to the resource checks, for the segments that hold its size. -/
theorem allocRequest_sized {args : List Byte} (ha : Admitted .alloc x s) (h : 1 ≤ arg16 args 0 ∧ arg16 args 0 ≤ 4096) :
    allocRequest x args s = withResources x ((arg16 args 0 + 127) / 128) s fun i =>
      .accept (half16 (currentHandle s i)) (takeRecord i x ((arg16 args 0 + 127) / 128) 0 (argHalf args 2) false s) :=
  (whenPermitted_of ha.1 ha.2).trans (demand_pos h)

theorem Admitted.entered {r : Req} (ha : Admitted r x s) (v : Via) (code : Byte) : Admitted r x (Machine.entered v code s) := by
  rwa [Admitted, entered_session]

/-- Settles O23: by step 3 and then the resource checks, each in its turn. -/
theorem allocChecksInOrder : Obligations.AllocChecksInOrder := by
  intro v args s hp ha
  have ha' := ha.entered v (reqCode .alloc)
  refine ⟨fun hsize => exec_refuse hp ?_, fun hsize => ⟨fun hq => exec_refuse hp ?_, fun hq => ⟨fun hf => exec_refuse hp ?_,
    fun hf hn => exec_refuse hp ?_⟩⟩⟩
  · exact (whenPermitted_of ha'.1 ha'.2).trans (demand_neg (by omega))
  · exact (allocRequest_sized ha' hsize).trans (withResources_overQuota (by rwa [entered_charge, entered_quota]))
  · exact (allocRequest_sized ha' hsize).trans
      (withResources_noRecord (by rwa [entered_charge, entered_quota]) (by rwa [entered_freeRecs]))
  · exact (allocRequest_sized ha' hsize).trans
      (withResources_noSpace (by rwa [entered_charge, entered_quota]) (by rwa [entered_freeRecs]) (by rwa [entered_freeSegs]))

theorem entered_latchedAfterTake (v : Via) (code : Byte) (s : State) (n : Nat) :
    latchedAfterTake (entered v code s) n = latchedAfterTake s n := by
  simp only [latchedAfterTake, entered_watermark, entered_freeSegs, entered_latched]

/-- Settles O24: the checks pass, and the effect is the take of the record at the head. -/
theorem allocTakesFromTheHeads : Obligations.AllocTakesFromTheHeads := by
  intro v args s i rest hp ha size n t h1 h2 hq hi hn
  have hk := (allocRequest_sized (ha.entered v (reqCode .alloc)) ⟨h1, h2⟩).trans
    (withResources_of (i := i) (rest := rest) (by rwa [entered_charge, entered_quota]) (by rwa [entered_freeRecs])
      (by rwa [entered_freeSegs]))
  refine (exec_accept hp hk).trans ?_
  rw [takeRecord_eq, currentHandle, entered_entry, entered_records, entered_freeRecs, entered_freeSegs, entered_charge,
    entered_latchedAfterTake, hi]
  rfl

/-! ## RETIRE (R20, R21) -/

/-- Settles O25: the accepted request's effect is the retirement path, and its rule says what that does. -/
theorem retireRunsTheRetirementPath : Obligations.RetireRunsTheRetirementPath := by
  intro v args s i h hp ha hat hx
  have ha' := ha.entered v (reqCode .retire)
  have hat' := hat.entered v (reqCode .retire)
  have hk : handlerOf .retire v.side args (entered v (reqCode .retire) s) = _ :=
    (whenPermitted_of ha'.1 ha'.2).trans (withHeld_of hat' hx)
  refine ⟨fun hpins => ⟨_, retirePath_held i h _ hat'.2.2, exec_accept hp ?_⟩, fun hpins => exec_refuse hp ?_⟩
  · exact hk.trans (demand_pos hpins)
  · exact hk.trans (demand_neg hpins)

/-! ## SETTAG and SETLEN (R24, R141) -/

/-- The buffer of a HELD record, edited once the port has taken the request in. -/
theorem mapBuf_entered {i : RecIdx} {h : Held} (hc : (s.entry i).custody = .held h) (f : Buffer → Buffer) (v : Via) (code : Byte) :
    mapBuf i f (entered v code s) =
      { entered v code s with
        records := s.records.set i { gen := (s.entry i).gen, custody := .held { h with buf := f h.buf } } } := by
  rw [mapBuf_held (h := h) (by rwa [entered_entry])]
  simp only [setHeld, State.setEntry, entered_records, entered_entry]

/-- Settles O26: past the checks each request edits one field of the record's buffer. -/
theorem settagAndSetlenReplaceOneField : Obligations.SettagAndSetlenReplaceOneField := by
  constructor
  · intro v args s i h hp ha hat hx
    have ha' := ha.entered v (reqCode .settag)
    have hk : handlerOf .settag v.side args (entered v (reqCode .settag) s) = _ :=
      (whenPermitted_of ha'.1 ha'.2).trans (withHeld_of (hat.entered v (reqCode .settag)) hx)
    refine (exec_accept hp hk).trans ?_
    rw [mapBuf_entered hat.2.2]
  · intro v args s i h hp ha hat hx hpins hfill hlen hmax
    have ha' := ha.entered v (reqCode .setlen)
    have hk : handlerOf .setlen v.side args (entered v (reqCode .setlen) s) = _ :=
      ((whenPermitted_of ha'.1 ha'.2).trans (demand_pos hmax)).trans (withHeld_of (hat.entered v (reqCode .setlen)) hx)
    refine (exec_accept hp (hk.trans ((demand_pos ⟨hpins, hfill⟩).trans (demand_pos hlen)))).trans ?_
    rw [mapBuf_entered hat.2.2, le16_arg16]

/-! ## LOOKUP (R25, R196) -/

/-- The report of a HELD record in the layout's bytes. -/
theorem lookupLayout_held (s : State) (i : RecIdx) (h : Held) : lookupLayout (heldReport s i h) =
    [1, sideByte h.holder, 0xFF, 0xFF, chanByte h.origin, chanByte h.buf.reply] ++ le16 h.buf.length ++ le16 (128 * h.buf.segs.length) ++
      half16 h.buf.tag ++ [BitVec.ofNat 8 h.buf.pins, BitVec.ofNat 8 (h.buf.filling.toNat + 2 * h.lease.isSome.toNat)] ++
      le16 ((h.lease.map Lease.remaining).getD 0) := by
  simp only [lookupLayout, heldReport, Option.isSome_map, Buffer.capacity]
  rfl

theorem lookupLayout_queued (s : State) (i : RecIdx) (q : Queued) : lookupLayout (queuedReport s i q) =
    [2, 0xFF, BitVec.ofNat 8 q.chan.val, BitVec.ofNat 8 ((s.chan q.chan).queue.idxOf i), 0xFF, chanByte q.buf.reply] ++
      le16 q.buf.length ++ le16 (128 * q.buf.segs.length) ++ half16 q.buf.tag ++ [0, 0, 0, 0] := by
  simp only [lookupLayout, queuedReport, List.append_assoc]
  rfl

theorem sideByte_eq (y : Side) : sideByte y = if y = .host then 0 else 1 := by cases y <;> rfl

theorem lookupFlags_eq (filling lease : Bool) :
    BitVec.ofNat 8 (filling.toNat + 2 * lease.toNat) = (if filling then 1 else 0) + (if lease then 2 else 0) := by
  revert filling lease
  decide

/-- The report of a record is the same once the port has taken the request in. -/
theorem entered_heldReport (v : Via) (code : Byte) (s : State) (i : RecIdx) (h : Held) :
    heldReport (entered v code s) i h = heldReport s i h := by
  simp only [heldReport, currentHandle, entered_entry]

theorem entered_queuedReport (v : Via) (code : Byte) (s : State) (i : RecIdx) (q : Queued) :
    queuedReport (entered v code s) i q = queuedReport s i q := by
  simp only [queuedReport, currentHandle, entered_entry, entered_chan]

/-- What a LOOKUP accepted for a HELD record answers. -/
theorem lookupRequest_held {args : List Byte} {h : Held} (ha : Admitted .lookup x s) (hat : HeldAt (argHalf args 0) i h s) :
    lookupRequest x args s = .accept (lookupLayout (heldReport s i h)) s := by
  obtain ⟨rfl, hg, hc⟩ := hat
  refine ((whenPermitted_of ha.1 ha.2).trans (withCurrent_of hg (by simp [hc]))).trans ?_
  rw [hc]

/-- What a LOOKUP accepted for a QUEUED record answers. -/
theorem lookupRequest_queued {args : List Byte} {q : Queued} (ha : Admitted .lookup x s)
    (hg : handleGen (argHalf args 0) = (s.entry (handleIdx (argHalf args 0))).gen)
    (hc : (s.entry (handleIdx (argHalf args 0))).custody = .queued q) :
    lookupRequest x args s = .accept (lookupLayout (queuedReport s (handleIdx (argHalf args 0)) q)) s := by
  refine ((whenPermitted_of ha.1 ha.2).trans (withCurrent_of hg (by simp [hc]))).trans ?_
  rw [hc]

/-- Settles O27: a current handle's record is HELD or QUEUED, and each report is laid out byte by byte. -/
theorem lookupReportsAndChangesNothing : Obligations.LookupReportsAndChangesNothing := by
  intro v args s hp ha i chanOr answer common hg
  have ha' := ha.entered v (reqCode .lookup)
  have chanOr_eq : ∀ c, chanByte c = chanOr c := fun c => by cases c <;> rfl
  refine ⟨(currentHandle_of_gen hg).symm, fun h hc => ⟨currentHandle_of_gen hg, ?_⟩, fun q hc => ⟨currentHandle_of_gen hg, ?_⟩⟩
  · have hat : HeldAt (argHalf args 0) i h s := ⟨rfl, hg, hc⟩
    refine (exec_accept hp (lookupRequest_held ha' (hat.entered v _))).trans ?_
    rw [entered_heldReport, lookupLayout_held, lookupFlags_eq]
    simp only [chanOr_eq, sideByte_eq, common, List.append_assoc]
  · refine (exec_accept hp (lookupRequest_queued (q := q) ha' (by rwa [entered_entry]) (by rwa [entered_entry]))).trans ?_
    rw [entered_queuedReport, lookupLayout_queued]
    simp only [chanOr_eq, common, List.append_assoc, i]

end Sys2Proof.Machine
end

section
/-! Device reset: its values, and what the two reset lines do. -/

namespace Sys2Proof.Machine

variable {s : State}

/-! ## The reset values -/

theorem conditions_reset (x : Side) : conditions State.reset x = 0 := by
  have hc : State.reset.chans = Vector.replicate 12 Channel.reset := rfl
  unfold conditions claimable tallyCond
  rw [hc]
  cases x <;> decide

theorem line_reset (x : Side) : State.reset.line x = false := by
  have he : State.reset.enables.get x = 0 := by cases x <;> rfl
  rw [State.line, he]
  exact bne_eq_false_iff_eq.2 BitVec.and_zero

/-- Settles O3: each value as the reset state writes it, and the two status words from them. -/
theorem deviceResetValues : Obligations.DeviceResetValues := by
  refine ⟨entry_reset, by simp only [State.reset], by simp only [State.reset], rfl, rfl, rfl, chan_reset, rfl, rfl, rfl, rfl, rfl, rfl,
    rfl, rfl, rfl, fun n => ?_, rfl, rfl, rfl, ?_, ?_, fun x => ⟨line_reset x, conditions_reset x⟩⟩
  · simp [State.reset]
  · rw [wstat, line_reset]
    rfl
  · rw [linkStatus, line_reset]
    rfl

/-! ## The reset lines (R180, R182, R193) -/

/-- A REQ write held at the fall of nRESET completes with LERR. -/
theorem heldFails_eq (held : Option HeldWrite) (bus : Option BusAnswer) :
    heldFails held bus = if held.isSome then some { lerr := true, data := none } else bus := by
  cases held <;> rfl

theorem portReset_eq (bits : List Bool) (s : State) :
    portReset bits s = { s with rx := abandonedRx bits s, slot := .empty, overrun := false, checkMode := false } := by
  rw [portReset, abandonFrame_eq]

theorem hostLinkReset_attached (h : s.session.host = .attached) (bits : List Bool) :
    hostLinkReset bits s = startSweep .host (portReset bits s) := if_pos h

theorem hostLinkReset_notAttached (h : s.session.host ≠ .attached) (bits : List Bool) : hostLinkReset bits s = portReset bits s :=
  if_neg h

/-- Settles O59: each line's fall runs its reset once, and a line that is low already does nothing. -/
theorem resetLinesActAsGiven : Obligations.ResetLinesActAsGiven := by
  intro s bits held port
  refine ⟨fun h => ?_, fun h => exec_deviceReset_low h _, fun h hses => ?_, fun h hses => ?_, fun h => exec_hostLinkReset_low h _,
    rfl, rfl⟩
  · rw [exec_deviceReset_full h, deviceResetFalls, abandonFrame_eq, heldFails_eq]
  · rw [exec_hostLinkReset_full h, hostLinkReset_notAttached hses, portReset_eq]
  · exact ⟨_, startSweep_spec .host port, by rw [exec_hostLinkReset_full h, hostLinkReset_attached hses, portReset_eq]⟩

end Sys2Proof.Machine
end

section
/-! What a command can do to the Segment Store: leave it, or write one run of bytes at a record's offsets (R28, R137). -/

namespace Sys2Proof.Machine

variable {s t u : State}

/-! ## One run of bytes -/

/-- The store of `t` is that of `s`, or that of `s` with one run of bytes written from an offset of some buffer. -/
def WritesRun (s t : State) : Prop :=
  t.store = s.store ∨ ∃ b o data, t.store = writeRun s.store b o data

namespace WritesRun

theorem of_eq (h : t.store = s.store) : WritesRun s t := Or.inl h

theorem of_tableOnly (h : TableOnly s t) : WritesRun s t := of_eq h.store

/-- Only the two stores are compared. -/
theorem congr (h : WritesRun s t) {s' t' : State} (hs : s'.store = s.store) (ht : t'.store = t.store) : WritesRun s' t' := by
  unfold WritesRun
  rwa [hs, ht]

/-- A run of bytes goes to addresses of the store, and leaves it in canonical form. -/
theorem storeInv (h : WritesRun s t) (hs : StoreInv s) : StoreInv t := by
  unfold StoreInv
  rcases h with h | ⟨b, o, data, h⟩
  · rw [h]
    exact hs
  · rw [h]
    exact StoreInv.writeRun hs b o data

end WritesRun

/-! ## Verdicts -/

/-- Every state the verdict accepts with has the property. -/
def Verdict.Yields (P : State → Prop) (k : Verdict) : Prop := ∀ result u, k = .accept result u → P u

namespace Verdict.Yields

variable {P : State → Prop} {k : Verdict}

theorem refuse (st : Status) : (Verdict.refuse st).Yields P := fun _ _ e => by cases e

theorem accept {result : List Byte} (h : P u) : (Verdict.accept result u).Yields P := fun _ _ e => by
  cases e
  exact h

theorem demand {p : Prop} [Decidable p] {st : Status} (h : k.Yields P) : (Machine.demand p st k).Yields P :=
  fun result u e => h result u (demand_accept.1 e).2

theorem demandSome {α : Type} {o : Option α} {st : Status} {k : α → Verdict} (h : ∀ a, (k a).Yields P) :
    (Machine.demandSome o st k).Yields P := fun result u e => by
  obtain ⟨a, -, e⟩ := demandSome_accept.1 e
  exact h a result u e

theorem permitted {r : Req} {x : Side} (h : k.Yields P) : (whenPermitted r x s k).Yields P := fun result u e => by
  obtain ⟨-, -, e⟩ := whenPermitted_accept.1 e
  exact h result u e

theorem current {h : Half} {k : RecIdx → Custody → Verdict} (hk : ∀ i c, (k i c).Yields P) : (withCurrent h s k).Yields P :=
  demand (demand (hk _ _))

theorem held {x : Side} {h : Half} {k : RecIdx → Held → Verdict} (hk : ∀ i r, (k i r).Yields P) : (withHeld x h s k).Yields P :=
  fun result u e => by
    obtain ⟨i, r, -, -, e⟩ := withHeld_accept.1 e
    exact hk i r result u e

theorem room {x : Side} {c : ChanNo} {more : Bool} (h : k.Yields P) : (withRoom x c more s k).Yields P :=
  demand (demand (demand (demand h)))

theorem resources {x : Side} {n : Nat} {k : RecIdx → Verdict} (hk : ∀ i, (k i).Yields P) : (withResources x n s k).Yields P :=
  fun result u e => by
    obtain ⟨-, i, -, -, -, e⟩ := withResources_accept.1 e
    exact hk i result u e

theorem claim {x : Side} {c : ChanNo} {i : RecIdx} (h : ∀ q, P (claimRecord x c i q s)) : (claimFrom x c i s).Yields P := by
  unfold claimFrom
  split
  · exact accept (h _)
  · exact refuse _

end Verdict.Yields

/-! ## The requests -/

section
variable (x : Side) (args : List Byte) (s : State)

theorem startSweep_store : (startSweep x s).store = s.store := (startSweep_tableOnly x s).store

theorem attachRequest_store : (attachRequest x args s).Yields fun u => u.store = s.store := by
  refine .permitted (.accept ?_)
  split <;> rfl

theorem lookupRequest_store : (lookupRequest x args s).Yields fun u => u.store = s.store := by
  refine .permitted (.current fun i c => ?_)
  cases c with
  | free => exact .refuse _
  | held h => exact .accept rfl
  | queued q => exact .accept rfl

/-- WRITE is the only request that writes to the store. -/
theorem handlerOf_store (r : Req) (hr : r ≠ .write) : (handlerOf r x args s).Yields fun u => u.store = s.store := by
  cases r
  all_goals dsimp only [handlerOf]
  case write => exact absurd rfl hr
  case attach => exact attachRequest_store x args s
  case detach => exact .permitted (.accept (startSweep_store x s))
  case evict => exact .permitted (.demand (.accept (startSweep_store .host s)))
  case alloc => exact .permitted (.demand (.resources fun i => .accept (takeRecord_tableOnly i x _ _ _ _ s).store))
  case retire => exact .permitted (.held fun i _ => .demand (.accept (retirePath_tableOnly i s).store))
  case settag => exact .permitted (.held fun _ _ => .accept rfl)
  case lookup => exact lookupRequest_store x args s
  case setlen => exact .permitted (.demand (.held fun _ _ => .demand (.demand (.accept rfl))))
  case read => exact .permitted (.demand (.held fun _ _ => .demand (.demand (.accept rfl))))
  case clone =>
    exact .permitted (.held fun i h => .demand (.demand (.resources fun c => .accept (makeClone_tableOnly x i c h.buf s).store)))
  case renew => exact .permitted (.held fun _ _ => .demandSome fun _ => .accept rfl)
  case post =>
    exact .permitted (.demandSome fun c => .demandSome fun reply => .held fun i h => .demand
      (.room (.accept (placeOn_tableOnly i h c reply s).store)))
  case ret => exact .permitted (.held fun i h => .demand (.demandSome fun c => .room (.accept (placeOn_tableOnly i h c none s).store)))
  case claim => exact .permitted (.demandSome fun _ => .demand (.demandSome fun _ => .claim fun _ => rfl))
  case claimtag => exact .permitted (.demandSome fun _ => .demand (.demandSome fun _ => .claim fun _ => rfl))
  case claimany => exact .permitted (.demandSome fun _ => .demandSome fun _ => .claim fun _ => rfl)
  case tally => exact .permitted (.demandSome fun _ => .demand (.accept rfl))
  case chaninfo => exact .permitted (.demandSome fun _ => .accept rfl)
  case chancfg => exact .permitted (.demandSome fun _ => .demandSome fun _ => .demand (.demandSome fun _ => .demand (.accept rfl)))
  case chanon => exact .permitted (.demandSome fun _ => .demand (.accept rfl))
  case chanoff => exact .permitted (.demandSome fun _ => .demand (.accept rfl))
  case purge => exact .permitted (.demandSome fun c => .accept (purgeQueue_tableOnly c s).store)
  case poolinfo => exact .permitted (.accept rfl)
  case quota => exact .permitted (.demandSome fun _ => .demand (.accept rfl))
  case watermark => exact .permitted (.demand (.accept rfl))
  case events => exact .permitted (.accept rfl)
  case ack => exact .permitted (.demand (.accept rfl))
  case evmask => exact .permitted (.demand (.accept rfl))
  case openRec => exact .permitted (.held fun _ _ => .demand (.accept rfl))
  case closeAp => exact .permitted (.accept rfl)
  case linkcfg => exact .permitted (.demandSome fun _ => .accept rfl)

theorem writeRecord_writesRun (i : RecIdx) (b : Buffer) (o : Nat) (data : List Byte) : WritesRun s (writeRecord i b o data s) :=
  Or.inr ⟨b, o, data, rfl⟩

theorem writeRequest_writesRun : (writeRequest x args s).Yields (WritesRun s) :=
  .permitted (.demand (.held fun i h => .demand (.demand (.demand (.accept (writeRecord_writesRun s i h.buf _ _))))))

theorem handlerOf_writesRun (r : Req) : (handlerOf r x args s).Yields (WritesRun s) := by
  by_cases hr : r = .write
  · subst hr
    exact writeRequest_writesRun x args s
  · exact fun result u e => .of_eq (handlerOf_store x args s r hr result u e)

theorem handlerOfCode_writesRun (code : Byte) : (handlerOfCode code x args s).Yields (WritesRun s) := by
  unfold handlerOfCode
  cases reqOfCode code with
  | none => exact .refuse _
  | some r => exact handlerOf_writesRun x args s r

end

@[simp] theorem answered_store (v : Via) (code : Byte) (st : Status) (result : List Byte) (s : State) :
    (answered v code st result s).store = s.store := by rw [answered_eq]

/-- The ports do not touch the store: a request's effect alone can. -/
theorem takeRequest_writesRun {code : Byte} {h : Handler} (hh : ∀ x args s, (h x args s).Yields (WritesRun s)) (v : Via) (s : State) :
    WritesRun s (takeRequest code h v s) := by
  rcases takeRequest_cases code h v s with he | ⟨st, he⟩ | ⟨args, result, u, -, ha, he⟩
  · rw [he]
    exact .of_eq (entered_store v code s)
  · rw [he]
    exact .of_eq ((answered_store ..).trans (entered_store v code s))
  · rw [he]
    exact (hh v.side args _ result u ha).congr (entered_store v code s).symm (answered_store ..)

theorem takeReq_writesRun (r : Req) (v : Via) (s : State) : WritesRun s (takeRequest (reqCode r) (handlerOf r) v s) :=
  takeRequest_writesRun (fun x args s => handlerOf_writesRun x args s r) v s

theorem takeCode_writesRun (code : Byte) (v : Via) (s : State) : WritesRun s (takeRequest code (handlerOfCode code) v s) :=
  takeRequest_writesRun (fun x args s => handlerOfCode_writesRun x args s code) v s

/-! ## Frames and bus accesses -/

theorem closeFrame_store (edges : Nat) (bytes : List Byte) (s : State) : (closeFrame edges bytes s).store = s.store := by
  rw [closeFrame_eq]

theorem fetchFrame_store (bits : List Bool) (s : State) : (fetchFrame bits s).store = s.store := by
  unfold fetchFrame
  dsimp only
  split <;> exact closeFrame_store _ _ s

theorem anyFrame_writesRun (bits : List Bool) (s : State) : WritesRun s (anyFrame bits s) := by
  unfold anyFrame
  split
  · exact .of_eq (closeFrame_store _ _ s)
  · split
    · exact .of_eq (fetchFrame_store _ s)
    · exact takeCode_writesRun _ _ s

theorem frameBegins_store (s : State) : (frameBegins s).store = s.store := by
  unfold frameBegins
  split <;> rfl

theorem unknownRequestCode_writesRun (code : Byte) (v : Via) (s : State) :
    ∃ t, exec (.unknownRequestCode code v) s = .next t ∧ WritesRun s t := by
  cases v with
  | host bits =>
    refine ⟨_, rfl, ?_⟩
    split
    · exact .of_eq (fetchFrame_store bits s)
    · exact takeCode_writesRun code _ s
  | loc upper lanes => exact ⟨_, rfl, takeCode_writesRun code _ s⟩

theorem argWrite_store (n : Fin 4) (data : Word) (be : BitVec 4) (s : State) : (argWrite n data be s).store = s.store := by
  unfold argWrite
  split <;> rfl

theorem apertureRead_store (word : BitVec 10) (s : State) : (apertureRead word s).store = s.store := by
  unfold apertureRead
  dsimp only
  split
  · split
    · split <;> rfl
    · rfl
  · rfl

theorem apertureWrite_writesRun (word : BitVec 10) (data : Word) (be : BitVec 4) (s : State) :
    WritesRun s (apertureWrite word data be s) := by
  unfold apertureWrite
  split
  · split
    · exact Or.inr ⟨_, _, _, rfl⟩
    · exact .of_eq rfl
  · exact .of_eq rfl

theorem registerRead_store (word : Nat) (s : State) : (registerRead word s).store = s.store := by
  unfold registerRead
  split <;> rfl

/-- Of the registers REQ alone can have a request write to the store. -/
theorem registerWrite_writesRun (a : BusAccess) (s : State) : WritesRun s (registerWrite a s) := by
  unfold registerWrite
  split
  · exact .of_eq (argWrite_store _ _ _ s)
  · split
    · exact takeCode_writesRun _ _ s
    · exact .of_eq rfl
  · exact .of_eq rfl

theorem busAccess_writesRun (a : BusAccess) (s : State) : WritesRun s (busAccess a s) := by
  unfold busAccess
  split
  · split
    · exact apertureWrite_writesRun _ _ _ s
    · exact .of_eq (apertureRead_store _ s)
  · split
    · split
      · exact registerWrite_writesRun a s
      · exact .of_eq (registerRead_store _ s)
    · exact .of_eq rfl

/-! ## The reset lines -/

/-- What DEVICE_RESET can do: nothing, the fall, or, after a draw, the whole short pulse or the held REQ write alone (R193, R201). -/
theorem exec_deviceReset_cases (p : DeviceFall) (s : State) : ∃ t, exec (.deviceReset p) s = .next t ∧
    (t = s ∨ t = deviceResetFalls p.bits p.held s ∨
      ∃ n, t = { deviceResetFalls p.bits p.held { s with freeCount := n } with nRESET := true } ∨
        t = completeWrite p.held { s with freeCount := n }) := by
  by_cases h : s.nRESET = true
  · obtain ⟨pulse, bits, held⟩ := p
    cases pulse with
    | full => exact ⟨_, exec_deviceReset_full h bits held, Or.inr (Or.inl rfl)⟩
    | short =>
      refine ⟨_, exec_deviceReset_short h bits held, Or.inr (Or.inr ⟨s.freeCount + 1, ?_⟩)⟩
      unfold shortPulse
      dsimp only
      split
      · exact Or.inl rfl
      · exact Or.inr rfl
  · exact ⟨s, exec_deviceReset_low (Bool.eq_false_of_not_eq_true h) p, Or.inl rfl⟩

/-- What HOST_LINK_RESET can do: nothing, the fall, or, after a draw, the whole short pulse or nothing further (R180, R201). -/
theorem exec_hostLinkReset_cases (p : LinkFall) (s : State) : ∃ t, exec (.hostLinkReset p) s = .next t ∧
    (t = s ∨ t = { hostLinkReset p.bits s with nHRST := false } ∨
      ∃ n, t = hostLinkReset p.bits { s with freeCount := n } ∨ t = { s with freeCount := n }) := by
  by_cases h : s.nHRST = true
  · obtain ⟨pulse, bits⟩ := p
    cases pulse with
    | full => exact ⟨_, exec_hostLinkReset_full h bits, Or.inr (Or.inl rfl)⟩
    | short =>
      refine ⟨_, exec_hostLinkReset_short h bits, Or.inr (Or.inr ⟨s.freeCount + 1, ?_⟩)⟩
      unfold shortPulse
      dsimp only
      split
      · exact Or.inl rfl
      · exact Or.inr rfl
  · exact ⟨s, exec_hostLinkReset_low (Bool.eq_false_of_not_eq_true h) p, Or.inl rfl⟩

theorem hostLinkReset_store (bits : List Bool) (s : State) : (hostLinkReset bits s).store = s.store := by
  unfold hostLinkReset
  dsimp only
  split
  · exact startSweep_store .host _
  · rfl

theorem completeWrite_writesRun (held : Option HeldWrite) (s : State) : WritesRun s (completeWrite held s) := by
  cases held with
  | none => exact .of_eq rfl
  | some w => exact takeCode_writesRun w.code _ s

/-- Device reset keeps the bytes of the store (R29); a held write may still be taken after an untaken pulse. -/
theorem deviceReset_writesRun (p : DeviceFall) (s : State) : ∃ t, exec (.deviceReset p) s = .next t ∧ WritesRun s t := by
  obtain ⟨t, ht, rfl | rfl | ⟨n, rfl | rfl⟩⟩ := exec_deviceReset_cases p s
  · exact ⟨_, ht, .of_eq rfl⟩
  · exact ⟨_, ht, .of_eq rfl⟩
  · exact ⟨_, ht, .of_eq rfl⟩
  · exact ⟨_, ht, (completeWrite_writesRun p.held { s with freeCount := n }).congr rfl rfl⟩

theorem hostLinkReset_writesRun (p : LinkFall) (s : State) : ∃ t, exec (.hostLinkReset p) s = .next t ∧ WritesRun s t := by
  obtain ⟨t, ht, rfl | rfl | ⟨n, rfl | rfl⟩⟩ := exec_hostLinkReset_cases p s
  · exact ⟨_, ht, .of_eq rfl⟩
  · exact ⟨_, ht, .of_eq (hostLinkReset_store p.bits s)⟩
  · exact ⟨_, ht, .of_eq (hostLinkReset_store p.bits _)⟩
  · exact ⟨_, ht, .of_eq rfl⟩

/-! ## Leases, copies and sweeps -/

theorem tclkCycle_store (s : State) : (tclkCycle s).store = s.store := by
  unfold tclkCycle
  split <;> rfl

theorem leaseTick_store (s : State) : (leaseTick s).store = s.store := by
  unfold leaseTick
  split
  · split <;> rfl
  · rfl

theorem leaseExpiry_tableOnly (i : RecIdx) (s : State) : TableOnly s (leaseExpiry i s) := by
  unfold leaseExpiry
  split
  · split
    · split
      · split
        · exact setHeld_tableOnly _ _ s
        · exact expire_tableOnly _ _ _ s
      · exact .refl s
    · exact .refl s
  · exact .refl s

theorem copyStep_writesRun (s : State) : WritesRun s (copyStep s) := by
  unfold copyStep
  split
  · exact .of_eq rfl
  · split
    · split
      · exact Or.inr ⟨_, _, _, rfl⟩
      · exact .of_eq rfl
    · exact .of_eq rfl

theorem sweepStep_store (x : Side) (s : State) : (sweepStep x s).store = s.store := by
  unfold sweepStep
  split
  · exact (sweepRecord_tableOnly x _ s).store
  · rfl

theorem sweepCompletion_store (x : Side) (s : State) : (sweepCompletion x s).store = s.store := by
  unfold sweepCompletion
  split
  · dsimp only [latch]
    exact (flushPurge_tableOnly x s).store
  · rfl

/-! ## The step -/

/-- Every command leaves the store as it was or writes one run of bytes. -/
theorem exec_writesRun (c : Instr) (s : State) : ∃ t, exec c s = .next t ∧ WritesRun s t := by
  cases c with
  | fetch bits => exact ⟨_, rfl, .of_eq (fetchFrame_store bits s)⟩
  | requestFrameDiscard bits => exact ⟨_, rfl, anyFrame_writesRun bits s⟩
  | argWrite n data be => exact ⟨_, rfl, .of_eq (argWrite_store n data be s)⟩
  | busError a => exact ⟨_, rfl, busAccess_writesRun a s⟩
  | apertureRead word be => exact ⟨_, rfl, .of_eq (apertureRead_store word s)⟩
  | apertureWrite word data be => exact ⟨_, rfl, apertureWrite_writesRun word data be s⟩
  | deviceReset p => exact deviceReset_writesRun p s
  | hostLinkReset p => exact hostLinkReset_writesRun p s
  | leaseTick => exact ⟨_, rfl, .of_eq (leaseTick_store s)⟩
  | leaseExpiry i => exact ⟨_, rfl, .of_tableOnly (leaseExpiry_tableOnly i s)⟩
  | copyStep => exact ⟨_, rfl, copyStep_writesRun s⟩
  | copyCompletion => exact ⟨_, rfl, .of_tableOnly (copyCompletion_tableOnly s)⟩
  | sweepStep x => exact ⟨_, rfl, .of_eq (sweepStep_store x s)⟩
  | sweepCompletion x => exact ⟨_, rfl, .of_eq (sweepCompletion_store x s)⟩
  | tclkCycle => exact ⟨_, rfl, .of_eq (tclkCycle_store s)⟩
  | nresetRises => exact ⟨_, rfl, .of_eq rfl⟩
  | nhrstReturningHigh => exact ⟨_, rfl, .of_eq rfl⟩
  | frameBegins => exact ⟨_, rfl, .of_eq (frameBegins_store s)⟩
  | unknownRequestCode code v => exact unknownRequestCode_writesRun code v s
  -- The 32 requests of the table.
  | _ => exact ⟨_, rfl, takeReq_writesRun _ _ s⟩

theorem step_writesRun (h : step s = .next t) : WritesRun s t := by
  obtain ⟨front, idle⟩ := stepRunsTheFrontCommand
  cases hp : s.pending with
  | nil =>
    rw [idle s hp] at h
    cases h
    exact .of_eq rfl
  | cons c rest =>
    obtain ⟨u, hu, hw⟩ := exec_writesRun c { s with pending := rest }
    rw [front c rest s hp, hu] at h
    cases h
    exact hw.congr rfl rfl

/-- Settles O6: a step writes at most one run of bytes, and a run keeps the store canonical and within its addresses. -/
theorem stepKeepsTheStoreCanonical : Obligations.StepKeepsTheStoreCanonical :=
  fun _ _ hs ht => (step_writesRun ht).storeInv hs

end Sys2Proof.Machine
end

section
/-! The reports, and the two settings of the pool. -/

namespace Sys2Proof.Machine

variable {x : Side} {s : State} {args : List Byte}

/-! ## POOLINFO, CHANINFO and EVENTS (R43, R77, R159, R196) -/

theorem flagByte_eq (f : Bool) : flagByte f = if f then 1 else 0 := rfl

theorem poolinfoRequest_admitted (ha : Admitted .poolinfo x s) : poolinfoRequest x args s = .accept (poolReport s) s :=
  whenPermitted_of ha.1 ha.2

theorem chaninfoRequest_admitted (ha : Admitted .chaninfo x s) {c : ChanNo} (hc : arg8 args 0 = BitVec.ofNat 8 c.val) :
    chaninfoRequest x args s = .accept (chanReport (s.chan c)) s := by
  refine (whenPermitted_of ha.1 ha.2).trans ?_
  rw [withChan, hc, chanOfByte_ofNat, demandSome_some]

theorem eventsRequest_admitted (ha : Admitted .events x s) : eventsRequest x args s = .accept (eventsReport s x) s :=
  whenPermitted_of ha.1 ha.2

theorem entered_poolReport (v : Via) (code : Byte) (s : State) : poolReport (entered v code s) = poolReport s := by
  simp only [poolReport, entered_freeSegs, entered_freeRecs, entered_charge, entered_quota, entered_watermark]

theorem entered_eventsReport (v : Via) (code : Byte) (s : State) (x : Side) :
    eventsReport (entered v code s) x = eventsReport s x := by
  simp only [eventsReport, entered_latched, entered_conditions, entered_enables, entered_line]

/-- Settles O28: each report is accepted with the state it was asked of, and reads the same before and after the port's entry. -/
theorem reportsChangeNothing : Obligations.ReportsChangeNothing := by
  refine ⟨fun v args s hp ha => ?_, fun v args s c hp ha hc => ?_, fun v args s hp ha => ?_⟩
  · refine (exec_accept hp (poolinfoRequest_admitted (args := args) (ha.entered v _))).trans ?_
    rw [entered_poolReport, poolReport]
  · refine (exec_accept hp (chaninfoRequest_admitted (ha.entered v _) hc)).trans ?_
    simp only [entered_chan, chanReport, flagByte_eq, sideByte_eq]
  · refine (exec_accept hp (eventsRequest_admitted (args := args) (ha.entered v _))).trans ?_
    rw [entered_eventsReport, eventsReport, flagByte_eq]
    rfl

/-! ## QUOTA and WATERMARK (R37, R39) -/

theorem sideOfByte_sideByte (y : Side) : sideOfByte (sideByte y) = some y := by cases y <;> rfl

theorem quotaRequest_inRange (ha : Admitted .quota x s) {y : Side} (hy : arg8 args 0 = sideByte y) (hq : arg16 args 2 ≤ 512) :
    quotaRequest x args s = .accept (le16 (s.charge.get y)) { s with quota := s.quota.set y (arg16 args 2) } := by
  refine (whenPermitted_of ha.1 ha.2).trans ?_
  rw [hy, sideOfByte_sideByte, demandSome_some, demand_pos hq]

theorem watermarkRequest_inRange (ha : Admitted .watermark x s) (h : arg16 args 0 ≤ 512) :
    watermarkRequest x args s = .accept (le16 s.freeSegs.length) { s with watermark := arg16 args 0 } :=
  (whenPermitted_of ha.1 ha.2).trans (demand_pos h)

/-- A presented request of an ATTACHED side with an argument out of range is refused at step 3 (R12). -/
theorem exec_outOfRange {r : Req} {v : Via} (hp : Presents v r s args) (ha : Admitted r v.side s) (hr : ¬ArgsInRange r args) :
    exec (requestInstr r v) s = .next (refusedWith r v .range s) := by
  obtain ⟨ho, hses⟩ := ha.entered v (reqCode r)
  exact exec_refuse hp (handlerOf_range ho (Or.inl hses) hr)

/-- A byte that names neither side is above 1. -/
theorem sideArg_outOfRange {b : Byte} (h : b ≠ 0 ∧ b ≠ 1) : ¬b.toNat ≤ 1 := by
  obtain ⟨h0, h1⟩ := h
  bv_omega

/-- Settles O29: in range each request sets its one field, out of range step 3 refuses it. -/
theorem quotaAndWatermarkSet : Obligations.QuotaAndWatermarkSet := by
  refine ⟨fun v args s hp ha => ⟨fun y hy hq => ?_, fun hbad => ?_⟩, fun v args s hp ha => ⟨fun h => ?_, fun hbad => ?_⟩⟩
  · refine (exec_accept hp (quotaRequest_inRange (ha.entered v _) (hy.trans (sideByte_eq y).symm) hq)).trans ?_
    simp only [entered_charge, entered_quota]
  · refine exec_outOfRange hp ha fun ⟨hside, hq⟩ => ?_
    rcases hbad with hbad | hbad
    · exact sideArg_outOfRange hbad hside
    · exact absurd hq (Nat.not_le_of_lt hbad)
  · refine (exec_accept hp (watermarkRequest_inRange (ha.entered v _) h)).trans ?_
    simp only [entered_freeSegs]
  · exact exec_outOfRange hp ha (Nat.not_le_of_lt hbad)

end Sys2Proof.Machine
end

section
/-! The channel requests: the channel argument, the three of a channel's configuration, and TALLY. -/

namespace Sys2Proof.Machine

variable {x : Side} {s : State} {args : List Byte} {c : ChanNo}

/-! ## The channel argument -/

theorem withChan_of {b : Byte} (hb : b = BitVec.ofNat 8 c.val) (k : ChanNo → Verdict) : withChan b k = k c := by
  rw [withChan, hb, chanOfByte_ofNat, demandSome_some]

/-- A channel replaced once the port has taken the request in. -/
theorem setChan_entered (v : Via) (code : Byte) (s : State) (c : ChanNo) (ch : Channel) :
    (entered v code s).setChan c ch = { entered v code s with chans := s.chans.set c ch } := by
  rw [State.setChan, entered_chans]

/-! ## TALLY (R75) -/

theorem tallyRequest_admitted (ha : Admitted .tally x s) (hc : arg8 args 0 = BitVec.ofNat 8 c.val) :
    tallyRequest x args s = demand ((s.chan c).source = x) .badChannel
      (.accept (le16 (s.chan c).tally) (s.setChan c { s.chan c with tally := 0 })) :=
  (whenPermitted_of ha.1 ha.2).trans (withChan_of hc _)

/-- Settles O48: past the channel argument TALLY has one check, its side being the channel's source. -/
theorem tallyReadsAndClears : Obligations.TallyReadsAndClears := by
  intro v args s c hp ha hc
  have hk := tallyRequest_admitted (ha.entered v (reqCode .tally)) hc
  rw [entered_chan, setChan_entered] at hk
  exact ⟨fun hsrc => exec_accept hp (hk.trans (demand_pos hsrc)), fun hsrc => exec_refuse hp (hk.trans (demand_neg hsrc))⟩

/-! ## CHANCFG, CHANON and CHANOFF (R51 to R54) -/

theorem flagOfByte_flagByte (f : Bool) : flagOfByte (flagByte f) = some f := by cases f <;> rfl

/-- What CHANCFG makes of a channel (R52). -/
def configured (args : List Byte) (src : Side) (flush : Bool) (ch : Channel) : Channel :=
  { ch with
    source := src, depth := (arg8 args 2).toNat, priority := (arg8 args 3).toNat, leaseTime := arg16 args 4, flush := flush,
    tally := 0 }

theorem chancfgRequest_inRange {src : Side} {flush : Bool} (ha : Admitted .chancfg x s) (hc : arg8 args 0 = BitVec.ofNat 8 c.val)
    (hsrc : arg8 args 1 = sideByte src) (hdepth : 1 ≤ (arg8 args 2).toNat ∧ (arg8 args 2).toNat ≤ 32)
    (hprio : (arg8 args 3).toNat ≤ 3) (hlease : arg16 args 4 ≤ 4095) (hflush : arg8 args 6 = flagByte flush) :
    chancfgRequest x args s = demand ((s.chan c).enabled = false) .channelBusy
      (.accept [] (s.setChan c (configured args src flush (s.chan c)))) := by
  refine (whenPermitted_of ha.1 ha.2).trans ((withChan_of hc _).trans ?_)
  rw [hsrc, sideOfByte_sideByte, demandSome_some, demand_pos ⟨hdepth, hprio, hlease⟩, hflush, flagOfByte_flagByte, demandSome_some]
  rfl

theorem chanonRequest_admitted (ha : Admitted .chanon x s) (hc : arg8 args 0 = BitVec.ofNat 8 c.val) :
    chanonRequest x args s = demand ((s.chan c).enabled = true ∨ (s.chan c).depth ≠ 0) .range
      (.accept [] (s.setChan c { s.chan c with enabled := true })) :=
  (whenPermitted_of ha.1 ha.2).trans (withChan_of hc _)

theorem chanoffRequest_admitted (ha : Admitted .chanoff x s) (hc : arg8 args 0 = BitVec.ofNat 8 c.val) :
    chanoffRequest x args s = demand ((s.chan c).outstanding = 0) .channelBusy
      (.accept [] (s.setChan c { s.chan c with enabled := false })) :=
  (whenPermitted_of ha.1 ha.2).trans (withChan_of hc _)

/-- Settles O49: with its arguments in range each request comes down to one check on the channel, and then to one write of it. -/
theorem channelsAreConfigured : Obligations.ChannelsAreConfigured := by
  refine ⟨?_, ?_, ?_⟩
  · intro v args s c src flush hp ha hc hsrc h1 h32 hprio hlease hflush
    have hk := chancfgRequest_inRange (ha.entered v (reqCode .chancfg)) hc (hsrc.trans (sideByte_eq src).symm) ⟨h1, h32⟩ hprio hlease
      (hflush.trans (flagByte_eq flush).symm)
    rw [entered_chan, setChan_entered] at hk
    exact ⟨fun he => exec_accept hp (hk.trans (demand_pos he)), fun he => exec_refuse hp (hk.trans (demand_neg (by simp [he])))⟩
  · intro v args s c hp ha hc
    have hk := chanonRequest_admitted (ha.entered v (reqCode .chanon)) hc
    rw [entered_chan, setChan_entered] at hk
    exact ⟨fun h => exec_accept hp (hk.trans (demand_pos h)),
      fun he hd => exec_refuse hp (hk.trans (demand_neg (by simp [he, hd])))⟩
  · intro v args s c hp ha hc
    have hk := chanoffRequest_admitted (ha.entered v (reqCode .chanoff)) hc
    rw [entered_chan, setChan_entered] at hk
    exact ⟨fun h => exec_accept hp (hk.trans (demand_pos h)),
      fun h => exec_refuse hp (hk.trans (demand_neg (Nat.ne_of_gt h)))⟩

end Sys2Proof.Machine
end

section
/-! POST and RETURN: their checks on a channel, in order, and the record's place on it. CLAIM's and CLAIMTAG's check on a channel. -/

namespace Sys2Proof.Machine

variable {x : Side} {s : State} {args : List Byte} {c : ChanNo} {i : RecIdx} {h : Held} {reply : Option ChanNo}

/-! ## The channel and credit checks (R59, R64) -/

theorem peerAbsentOn_iff (ch : Channel) (s : State) :
    peerAbsentOn ch s = true ↔ ch.flush = true ∧ s.session.get (peer ch.source) ≠ .attached := by
  simp [peerAbsentOn, chanDest]

theorem replyUsable_iff (c : ChanNo) (reply : Option ChanNo) (s : State) :
    replyUsable c reply s = true ↔
      ∀ r, reply = some r → (s.chan r).enabled = true ∧ (s.chan r).source = peer (s.chan c).source := by
  cases reply <;> simp [replyUsable, chanDest]

section
variable {more : Bool} {k : Verdict}

theorem withRoom_badChannel (hu : ¬((s.chan c).enabled = true ∧ (s.chan c).source = x)) :
    withRoom x c more s k = .refuse .badChannel := demand_neg hu

theorem withRoom_badReply (hu : (s.chan c).enabled = true ∧ (s.chan c).source = x) (hm : more ≠ true) :
    withRoom x c more s k = .refuse .badChannel := (demand_pos hu).trans (demand_neg hm)

theorem withRoom_peerAbsent (hu : (s.chan c).enabled = true ∧ (s.chan c).source = x) (hm : more = true)
    (hp : peerAbsentOn (s.chan c) s = true) : withRoom x c more s k = .refuse .peerAbsent :=
  (demand_pos hu).trans ((demand_pos hm).trans (demand_neg (by simp [hp])))

/-- Past the checks on the channel there is the credit check. -/
theorem withRoom_credit (hu : (s.chan c).enabled = true ∧ (s.chan c).source = x) (hm : more = true)
    (hp : ¬peerAbsentOn (s.chan c) s = true) :
    withRoom x c more s k = demand ((s.chan c).outstanding < (s.chan c).depth) .noCredit k :=
  (demand_pos hu).trans ((demand_pos hm).trans (demand_pos (by simpa using hp)))

theorem withRoom_of (hu : (s.chan c).enabled = true ∧ (s.chan c).source = x) (hm : more = true)
    (hflush : (s.chan c).flush = true → s.session.get (peer (s.chan c).source) = .attached)
    (hroom : (s.chan c).outstanding < (s.chan c).depth) : withRoom x c more s k = k := by
  refine (withRoom_credit hu hm fun hpa => ?_).trans (demand_pos hroom)
  obtain ⟨hf, hna⟩ := (peerAbsentOn_iff _ s).1 hpa
  exact hna (hflush hf)

theorem entered_peerAbsentOn (v : Via) (code : Byte) (ch : Channel) : peerAbsentOn ch (entered v code s) = peerAbsentOn ch s := by
  simp only [peerAbsentOn, entered_session]

theorem entered_replyUsable (v : Via) (code : Byte) : replyUsable c reply (entered v code s) = replyUsable c reply s := by
  cases reply <;> simp only [replyUsable, entered_chan]

/-- The channel and credit checks read nothing a port changes. -/
theorem entered_withRoom (v : Via) (code : Byte) : withRoom x c more (entered v code s) k = withRoom x c more s k := by
  simp only [withRoom, entered_chan, entered_peerAbsentOn]

end

/-! ## Up to the channel checks -/

/-- POST's optional reply channel argument (R194). -/
theorem replyOfByte_of {b : Byte} (hb : b = (match reply with | some r => BitVec.ofNat 8 r.val | none => 0xFF)) :
    replyOfByte b = some reply := by
  subst hb
  cases reply with
  | none => rfl
  | some r => exact replyOfByte_ofNat r

/-- A POST of a record its side holds, unpinned and not filling, comes to the channel checks. -/
theorem postRequest_held (ha : Admitted .post x s) (hat : HeldAt (argHalf args 0) i h s) (hx : h.holder = x)
    (hbusy : h.buf.pins = 0 ∧ h.buf.filling = false) (hc : arg8 args 2 = BitVec.ofNat 8 c.val)
    (hr : replyOfByte (arg8 args 3) = some reply) :
    postRequest x args s = withRoom x c (replyUsable c reply s) s
      (.accept [BitVec.ofNat 8 (s.chan c).queue.length] (placeOn i h c reply s)) :=
  (whenPermitted_of ha.1 ha.2).trans <| (post_channels (by rw [hc, chanOfByte_ofNat]) hr _).trans <|
    (withHeld_of hat hx).trans (demand_pos hbusy)

/-- A RETURN of a record its side holds, unpinned and not filling, comes to its reply channel. -/
theorem returnRequest_held (ha : Admitted .ret x s) (hat : HeldAt (argHalf args 0) i h s) (hx : h.holder = x)
    (hbusy : h.buf.pins = 0 ∧ h.buf.filling = false) :
    returnRequest x args s = demandSome h.buf.reply .noReply fun r => withRoom x r true s
      (.accept [BitVec.ofNat 8 r.val, BitVec.ofNat 8 (s.chan r).queue.length] (placeOn i h r none s)) :=
  (whenPermitted_of ha.1 ha.2).trans ((withHeld_of hat hx).trans (demand_pos hbusy))

theorem withClaimable_badChannel {k : Verdict} (h : (s.chan c).enabled = false ∨ (s.chan c).source = x) :
    withClaimable x c s k = .refuse .badChannel := by
  refine demand_neg fun ⟨he, hd⟩ => ?_
  rcases h with h | h
  · simp [h] at he
  · exact peer_ne x (by rwa [chanDest, h] at hd)

/-- CLAIM and CLAIMTAG check the channel first of all (R67, R70). -/
theorem claims_badChannel {r : Req} (ha : Admitted r x s) (hr : r ∈ [Req.claim, .claimtag]) (hc : arg8 args 0 = BitVec.ofNat 8 c.val)
    (h : (s.chan c).enabled = false ∨ (s.chan c).source = x) : handlerOf r x args s = .refuse .badChannel := by
  simp only [List.mem_cons, List.not_mem_nil, or_false] at hr
  rcases hr with rfl | rfl
  · exact (whenPermitted_of ha.1 ha.2).trans ((withChan_of hc _).trans (withClaimable_badChannel h))
  · exact (whenPermitted_of ha.1 ha.2).trans ((withChan_of hc _).trans (withClaimable_badChannel h))

/-- Settles O43: POST and RETURN come to one chain of checks, and each refusal is its place in the chain. -/
theorem channelChecksInOrder : Obligations.ChannelChecksInOrder := by
  refine ⟨?_, ?_, ?_⟩
  · intro v args s i h c reply hp ha hat hx hpins hfill hc hreply refuse usable replyOk absent
    have hk := (postRequest_held (ha.entered v (reqCode .post)) (hat.entered v _) hx ⟨hpins, hfill⟩ hc (replyOfByte_of hreply)).trans
      (entered_withRoom v _)
    rw [entered_replyUsable] at hk
    exact ⟨fun hu => exec_refuse hp (hk.trans (withRoom_badChannel hu)),
      fun hu hr => exec_refuse hp (hk.trans (withRoom_badReply hu fun hm => hr ((replyUsable_iff c reply s).1 hm))),
      fun hu hr hab => exec_refuse hp (hk.trans (withRoom_peerAbsent hu ((replyUsable_iff c reply s).2 hr)
        ((peerAbsentOn_iff _ s).2 hab))),
      fun hu hr hab hfull => exec_refuse hp (hk.trans ((withRoom_credit hu ((replyUsable_iff c reply s).2 hr)
        fun hpa => hab ((peerAbsentOn_iff _ s).1 hpa)).trans (demand_neg (Nat.not_lt_of_le hfull))))⟩
  · intro v args s i h r hp ha hat hx hpins hfill hreply refuse usable absent
    have hk := returnRequest_held (ha.entered v (reqCode .ret)) (hat.entered v _) hx ⟨hpins, hfill⟩
    rw [hreply, demandSome_some, entered_withRoom] at hk
    exact ⟨fun hu => exec_refuse hp (hk.trans (withRoom_badChannel hu)),
      fun hu hab => exec_refuse hp (hk.trans (withRoom_peerAbsent hu rfl ((peerAbsentOn_iff _ s).2 hab))),
      fun hu hab hfull => exec_refuse hp (hk.trans ((withRoom_credit hu rfl
        fun hpa => hab ((peerAbsentOn_iff _ s).1 hpa)).trans (demand_neg (Nat.not_lt_of_le hfull))))⟩
  · intro r v args s c hp ha hr hc hbad
    exact exec_refuse hp (claims_badChannel (ha.entered v _) hr hc (by rwa [entered_chan]))

/-! ## The placing (R60, R65) -/

/-- A channel a side sources is no origin of a record it holds (R56). -/
theorem origin_ne_of_source (hs : RecordsInv s) (hc : (s.entry i).custody = .held h) (hx : h.holder = x)
    (hsrc : (s.chan c).source = x) : h.origin ≠ some c := fun ho => by
  have hok : heldOk s h := by
    have := hs i
    rwa [hc] at this
  obtain ⟨-, -, hfrom⟩ := hok
  rw [ho] at hfrom
  obtain ⟨hdest, -⟩ := hfrom
  rw [chanDest, hsrc, hx] at hdest
  exact peer_ne x hdest.symm

/-- Settles O44: all four checks pass, and the effect is the placing. -/
theorem postPlacesTheRecord : Obligations.PostPlacesTheRecord := by
  intro v args s i h c reply hp ha hs hat hx hpins hfill hc hreply he hsrc hr hflush hroom
  have hk := (postRequest_held (ha.entered v (reqCode .post)) (hat.entered v _) hx ⟨hpins, hfill⟩ hc (replyOfByte_of hreply)).trans
    (entered_withRoom v _)
  rw [entered_replyUsable, entered_chan] at hk
  refine ⟨_, placeOn_spec i h c reply _ (origin_ne_of_source hs hat.2.2 hx hsrc), exec_accept hp (hk.trans
    (withRoom_of ⟨he, hsrc⟩ ((replyUsable_iff c reply s).2 hr) hflush hroom))⟩

/-- Settles O45: RETURN comes to the same checks and the same placing as POST, on the record's reply channel. -/
theorem returnPlacesTheRecord : Obligations.ReturnPlacesTheRecord := by
  intro v args s i h hp ha hs hat hx hpins hfill
  have hk := returnRequest_held (ha.entered v (reqCode .ret)) (hat.entered v _) hx ⟨hpins, hfill⟩
  refine ⟨fun r hreply he hsrc hflush hroom => ?_, fun hreply => exec_refuse hp (hk.trans (by rw [hreply, demandSome_none]))⟩
  rw [hreply, demandSome_some, entered_withRoom, entered_chan] at hk
  refine ⟨_, placeOn_spec i h r none _ (origin_ne_of_source hs hat.2.2 hx hsrc), exec_accept hp (hk.trans
    (withRoom_of ⟨he, hsrc⟩ rfl hflush hroom))⟩

end Sys2Proof.Machine
end

section
/-! The claims: what a claim makes of the record, and how CLAIM, CLAIMTAG and CLAIMANY find it. -/

namespace Sys2Proof.Machine

variable {x : Side} {s : State} {args : List Byte} {c : ChanNo} {i : RecIdx} {q : Queued} {rest : List RecIdx}

/-! ## The claim of a record (R68, R69, R84) -/

theorem claimReport_eq (s : State) (c : ChanNo) (i : RecIdx) (b : Buffer) : claimReport s c i b = claimBytes s c i b := rfl

theorem grantLease_eq (n : Nat) : grantLease n = if 1 ≤ n then some { remaining := n, due := false } else none := by
  cases n <;> rfl

theorem claimRecord_eq (hdest : peer (s.chan c).source = x) (hq : (s.chan c).queue.erase i = rest) :
    claimRecord x c i q s = claimedState x c i q rest s := by
  have hsrc : (s.chan c).source = peer x := by rw [← hdest, peer_peer]
  have hcharge : (s.charge.set (peer x) (s.charge.get (peer x) - q.buf.segs.length)).get x = s.charge.get x :=
    Per.get_peer_set _ _ _
  simp only [claimRecord, claimedState, moveCharge, addCharge, subCharge, setHeld, State.setEntry, State.setChan, hsrc, hcharge,
    hq, grantLease_eq]
  rfl

/-- A record found QUEUED is claimed, and the claim layout answered. -/
theorem claimFrom_queued (hc : (s.entry i).custody = .queued q) (hdest : peer (s.chan c).source = x)
    (hq : (s.chan c).queue.erase i = rest) :
    claimFrom x c i s = .accept (claimBytes s c i q.buf) (claimedState x c i q rest s) := by
  rw [claimFrom, hc]
  dsimp only
  rw [claimReport_eq, claimRecord_eq hdest hq]

theorem claimFrom_with_rr (hc : (s.entry i).custody = .queued q) (hdest : peer (s.chan c).source = x)
    (hq : (s.chan c).queue.erase i = rest) (p : Per ChanNo) :
    claimFrom x c i { s with rr := p } =
      .accept (claimBytes s c i q.buf) { claimedState x c i q rest s with rr := p } :=
  claimFrom_queued (s := { s with rr := p }) hc hdest hq

theorem entered_claimBytes (v : Via) (code : Byte) (s : State) (c : ChanNo) (i : RecIdx) (b : Buffer) :
    claimBytes (entered v code s) c i b = claimBytes s c i b := by
  simp only [claimBytes, entered_entry]

/-- A record claimed once the port has taken the request in. -/
theorem claimFrom_entered (hc : (s.entry i).custody = .queued q) (hdest : peer (s.chan c).source = x)
    (hq : (s.chan c).queue.erase i = rest) (v : Via) (code : Byte) :
    claimFrom x c i (entered v code s) = .accept (claimBytes s c i q.buf) (claimedState x c i q rest (entered v code s)) := by
  rw [claimFrom_queued (q := q) (rest := rest) (by rwa [entered_entry]) (by rwa [entered_chan]) (by rwa [entered_chan]),
    entered_claimBytes]

/-! ## CLAIM and CLAIMTAG (R67, R70) -/

theorem claimRequest_usable (ha : Admitted .claim x s) (hc : arg8 args 0 = BitVec.ofNat 8 c.val) (he : (s.chan c).enabled = true)
    (hdest : peer (s.chan c).source = x) :
    claimRequest x args s = demandSome (headOf c s) .empty fun i => claimFrom x c i s :=
  (whenPermitted_of ha.1 ha.2).trans ((withChan_of hc _).trans (demand_pos ⟨he, hdest⟩))

theorem claimtagRequest_usable (ha : Admitted .claimtag x s) (hc : arg8 args 0 = BitVec.ofNat 8 c.val)
    (he : (s.chan c).enabled = true) (hdest : peer (s.chan c).source = x) :
    claimtagRequest x args s = demandSome (tagMatch c (argHalf args 2) s) .empty fun i => claimFrom x c i s :=
  (whenPermitted_of ha.1 ha.2).trans ((withChan_of hc _).trans (demand_pos ⟨he, hdest⟩))

theorem tagOf_eq_some {tag : Half} : tagOf s i = some tag ↔ ∃ b, (s.entry i).custody.buf? = some b ∧ b.tag = tag :=
  Option.map_eq_some_iff

/-- CLAIMTAG's record is the first of the queue with the tag (R70). -/
theorem tagMatch_of {tag : Half} {front back : List RecIdx} (hq : (s.chan c).queue = front ++ i :: back)
    (hfront : ∀ j ∈ front, tagOf s j ≠ some tag) (hi : tagOf s i = some tag) : tagMatch c tag s = some i :=
  List.find?_eq_some_iff_append.2 ⟨by simpa using hi, front, back, hq, fun j hj => by simpa using hfront j hj⟩

theorem tagMatch_none {tag : Half} (h : ∀ j ∈ (s.chan c).queue, tagOf s j ≠ some tag) : tagMatch c tag s = none :=
  List.find?_eq_none.2 fun j hj => by simpa using h j hj

theorem entered_headOf (v : Via) (code : Byte) : headOf c (entered v code s) = headOf c s := by
  simp only [headOf, entered_chan]

theorem entered_tagMatch (v : Via) (code : Byte) (tag : Half) : tagMatch c tag (entered v code s) = tagMatch c tag s := by
  simp only [tagMatch, tagOf, entered_chan, entered_entry]

/-- Settles O46: each request finds its record in the queue, or none, and the record found is claimed. -/
theorem claimTakesTheRecord : Obligations.ClaimTakesTheRecord := by
  constructor
  · intro v args s c hp ha hc he hdest
    have hk := claimRequest_usable (ha.entered v (reqCode .claim)) hc (by rwa [entered_chan]) (by rwa [entered_chan])
    rw [entered_headOf] at hk
    refine ⟨fun i rest q hq hcus => exec_accept hp (hk.trans ?_), fun hq => exec_refuse hp (hk.trans ?_)⟩
    · rw [headOf, hq, List.head?_cons, demandSome_some]
      exact claimFrom_entered hcus hdest (by rw [hq, List.erase_cons_head]) v _
    · rw [headOf, hq, List.head?_nil, demandSome_none]
  · intro v args s c hp ha hc he hdest tagged
    have hk := claimtagRequest_usable (ha.entered v (reqCode .claimtag)) hc (by rwa [entered_chan]) (by rwa [entered_chan])
    rw [entered_tagMatch] at hk
    refine ⟨fun front i back q hq hfront hi hcus => exec_accept hp (hk.trans ?_), fun hnone => exec_refuse hp (hk.trans ?_)⟩
    · have hnot : i ∉ front := fun hm => hfront i hm hi
      rw [tagMatch_of hq (fun j hj hj' => hfront j hj (tagOf_eq_some.1 hj')) (tagOf_eq_some.2 hi), demandSome_some]
      exact claimFrom_entered hcus hdest (by rw [hq, List.erase_append_right _ hnot, List.erase_cons_head]) v _
    · rw [tagMatch_none fun j hj hj' => hnone j hj (tagOf_eq_some.1 hj'), demandSome_none]

/-! ## CLAIMANY (R71, R72) -/

theorem candidate_iff : candidate x s c = true ↔
    (s.chan c).enabled = true ∧ peer (s.chan c).source = x ∧ (s.chan c).queue ≠ [] := by
  simp [candidate, chanDest, and_assoc]

theorem topPriority_iff : topPriority x s c = true ↔
    ∀ d, candidate x s d = true → (s.chan d).priority ≤ (s.chan c).priority := by
  simp only [topPriority, List.all_eq_true, List.mem_finRange, forall_const, Bool.or_eq_true, Bool.not_eq_true', decide_eq_true_eq,
    ← Bool.not_eq_true, imp_iff_not_or]

/-- Place `k` of the rotation from `p` is the channel `k` above `p`. -/
theorem getElem_chanRotation (p k : ChanNo) (h : k.val < (chanRotation p).length) : (chanRotation p)[k.val] = p + k := by
  simp [chanRotation]

theorem length_chanRotation (p : ChanNo) : (chanRotation p).length = 12 := by simp [chanRotation]

/-- The choice is the candidate of the highest priority at the least distance above the pointer (R71). -/
theorem chosenChan_of (hc : candidate x s c = true)
    (hprio : ∀ d, candidate x s d = true → (s.chan d).priority ≤ (s.chan c).priority)
    (hnear : ∀ d, candidate x s d = true → (s.chan d).priority = (s.chan c).priority →
      (c - s.rr.get x).val ≤ (d - s.rr.get x).val) : chosenChan x s = some c := by
  have len := length_chanRotation (s.rr.get x)
  refine List.find?_eq_some_iff_getElem.2 ⟨?_, (c - s.rr.get x).val, by omega, ?_, fun j hj => ?_⟩
  · rw [hc, topPriority_iff.2 hprio]
    rfl
  · rw [getElem_chanRotation, add_sub_cancel]
  · have hj12 : j < 12 := by omega
    have hplace := getElem_chanRotation (s.rr.get x) ⟨j, hj12⟩ (by simpa [len] using hj12)
    rw [Bool.not_eq_true', ← Bool.not_eq_true, hplace, Bool.and_eq_true]
    rintro ⟨hd, htop⟩
    have near := hnear _ hd (Nat.le_antisymm (hprio _ hd) (topPriority_iff.1 htop c hc))
    rw [add_sub_cancel_left] at near
    exact absurd hj (Nat.not_lt_of_le near)

theorem chosenChan_none (h : ∀ d, ¬candidate x s d = true) : chosenChan x s = none :=
  List.find?_eq_none.2 fun d _ => by simp [h d]

theorem entered_chosenChan (v : Via) (code : Byte) : chosenChan x (entered v code s) = chosenChan x s := by
  simp only [chosenChan, topPriority, candidate, entered_chan, entered_rr]

theorem claimanyRequest_admitted (ha : Admitted .claimany x s) :
    claimanyRequest x args s = demandSome (chosenChan x s) .empty fun c =>
      demandSome (headOf c s) .empty fun i => claimFrom x c i { s with rr := s.rr.set x (c + 1) } :=
  whenPermitted_of ha.1 ha.2

/-- Settles O47: the channel chosen is the nearest of the highest priority, and its head is claimed with the pointer moved on. -/
theorem claimanyChoosesByPriorityThenRotation : Obligations.ClaimanyChoosesByPriorityThenRotation := by
  intro v args s hp ha isCandidate p
  have hk := claimanyRequest_admitted (args := args) (ha.entered v (reqCode .claimany))
  rw [entered_chosenChan] at hk
  refine ⟨fun c i rest q hc hprio hnear hq hcus => exec_accept hp (hk.trans ?_), fun hnone => exec_refuse hp (hk.trans ?_)⟩
  · rw [chosenChan_of (candidate_iff.2 hc) (fun d hd => hprio d (candidate_iff.1 hd)) (fun d hd => hnear d (candidate_iff.1 hd)),
      demandSome_some, entered_headOf, headOf, hq, List.head?_cons, demandSome_some]
    obtain ⟨-, hdest, -⟩ := hc
    refine (claimFrom_with_rr (q := q) (rest := rest) (by rwa [entered_entry]) (by rwa [entered_chan])
      (by rw [entered_chan, hq, List.erase_cons_head]) _).trans ?_
    rw [entered_claimBytes, entered_rr]
  · rw [chosenChan_none fun d hd => hnone d (candidate_iff.1 hd), demandSome_none]

end Sys2Proof.Machine
end

section
/-! The interrupt lines: what each condition says of the channels, and when a line is asserted. -/

namespace Sys2Proof.Machine

/-! ## The conditions (R80) -/

theorem any_chans_iff (s : State) (p : Channel → Bool) : s.chans.toList.any p = true ↔ ∃ c, p (s.chan c) = true := by
  simp only [List.any_eq_true, Vector.mem_toList_iff, Vector.mem_iff_getElem]
  constructor
  · rintro ⟨_, ⟨k, hk, rfl⟩, hp⟩
    exact ⟨⟨k, hk⟩, hp⟩
  · rintro ⟨c, hp⟩
    exact ⟨_, ⟨c.val, c.isLt, rfl⟩, hp⟩

theorem peer_eq_iff (x y : Side) : peer x = y ↔ x ≠ y := by cases x <;> cases y <;> decide

theorem claimable_iff (s : State) (x : Side) : claimable s x = true ↔
    ∃ c : ChanNo, (s.chan c).enabled = true ∧ (s.chan c).source ≠ x ∧ (s.chan c).queue ≠ [] := by
  rw [claimable, any_chans_iff]
  simp [chanDest, peer_eq_iff, and_assoc]

theorem tallyCond_iff (s : State) (x : Side) : tallyCond s x = true ↔
    ∃ c : ChanNo, (s.chan c).source = x ∧ 0 < (s.chan c).tally := by
  rw [tallyCond, any_chans_iff]
  simp

/-! ## The bits of a set (R197) -/

theorem getLsbD_eventMask (e : Event) (n : Nat) : (eventMask e).getLsbD n = true ↔ n = eventBit e := by
  have hlt : eventBit e < 10 := by cases e <;> decide
  rw [eventMask, ← BitVec.twoPow_eq, BitVec.getLsbD_twoPow, Bool.and_eq_true, decide_eq_true_iff, decide_eq_true_iff, eq_comm]
  exact and_iff_right hlt

theorem set_ne_zero_iff (m : EventSet) : m ≠ 0 ↔ ∃ n < 10, m.getLsbD n = true := by
  constructor
  · intro h
    by_contra hn
    exact h (BitVec.eq_of_getLsbD_eq fun n hlt => by simpa using fun hb => hn ⟨n, hlt, hb⟩)
  · rintro ⟨n, -, hn⟩ rfl
    simp at hn

theorem getLsbD_conditions (s : State) (x : Side) (n : Nat) : (conditions s x).getLsbD n = true ↔
    n = 0 ∧ claimable s x = true ∨ n = 1 ∧ tallyCond s x = true := by
  rw [conditions, BitVec.getLsbD_or, Bool.or_eq_true]
  refine or_congr ?_ ?_
  · cases claimable s x <;> simp [getLsbD_eventMask, eventBit]
  · cases tallyCond s x <;> simp [getLsbD_eventMask, eventBit]

/-! ## The lines (R158) -/

theorem line_iff (s : State) (x : Side) : s.line x = true ↔
    ∃ n < 10, (s.enables.get x).getLsbD n = true ∧ ((s.latched.get x).getLsbD n = true ∨ (conditions s x).getLsbD n = true) := by
  rw [State.line, bne_iff_ne, set_ne_zero_iff]
  simp only [BitVec.getLsbD_and, BitVec.getLsbD_or, Bool.and_eq_true, Bool.or_eq_true, and_comm]

/-- Settles O8: an enabled bit is pending, or it is one of the two conditions' bits. -/
theorem lineFollowsEnabledEvents : Obligations.LineFollowsEnabledEvents := by
  intro s x
  rw [line_iff, ← claimable_iff, ← tallyCond_iff]
  constructor
  · rintro ⟨n, hn, he, hl | hc⟩
    · exact Or.inl ⟨n, hn, he, hl⟩
    · rcases (getLsbD_conditions s x n).1 hc with ⟨rfl, h⟩ | ⟨rfl, h⟩
      · exact Or.inr (Or.inl ⟨he, h⟩)
      · exact Or.inr (Or.inr ⟨he, h⟩)
  · rintro (⟨n, hn, he, hl⟩ | ⟨he, h⟩ | ⟨he, h⟩)
    · exact ⟨n, hn, he, Or.inl hl⟩
    · exact ⟨0, by decide, he, Or.inr ((getLsbD_conditions s x 0).2 (Or.inl ⟨rfl, h⟩))⟩
    · exact ⟨1, by decide, he, Or.inr ((getLsbD_conditions s x 1).2 (Or.inr ⟨rfl, h⟩))⟩

end Sys2Proof.Machine
end

section
/-! Records freed one after the other, by a purge or by the end of their copies: what it leaves, whatever else their channels do. -/

namespace Sys2Proof.Machine

variable {s t u : State} {c : ChanNo} {i : RecIdx} {x : Side} {l m : List RecIdx}

/-! ## What the freeing of several records leaves (R21 steps 5 to 7) -/

/-- The records `l` have been freed in that order. The channels may have changed, but not their source sides. -/
structure Freed (l : List RecIdx) (s t : State) : Prop where
  entry : ∀ k, t.entry k = if k ∈ l then { gen := (s.entry k).gen + 1, custody := .free } else s.entry k
  freeRecs : t.freeRecs = s.freeRecs ++ l
  freeSegs : t.freeSegs = s.freeSegs ++ l.flatMap (segsOf s)
  charge : ∀ y, t.charge.get y =
    s.charge.get y - ((l.filter fun k => chargedSide s k == some y).map fun k => (segsOf s k).length).sum
  latched : t.latched = latchedAfterGive s (s.freeSegs.length + (l.flatMap (segsOf s)).length)
  source : ∀ d, (t.chan d).source = (s.chan d).source
  frame : t = { s with chans := t.chans, records := t.records, freeRecs := t.freeRecs, freeSegs := t.freeSegs, charge := t.charge,
                       latched := t.latched }

/-- A free count that does not rise crosses no watermark (R41). -/
theorem latchedAfterGive_self (s : State) : latchedAfterGive s s.freeSegs.length = s.latched :=
  if_neg fun h => absurd (Nat.lt_of_lt_of_le h.1 h.2) (Nat.lt_irrefl _)

/-- Two rises of the free count cross the watermark as their sum does (R41). -/
theorem latchedAfterGive_trans {n : Nat} (hw : t.watermark = s.watermark) (hl : t.latched = latchedAfterGive s t.freeSegs.length)
    (h1 : s.freeSegs.length ≤ t.freeSegs.length) (h2 : t.freeSegs.length ≤ n) : latchedAfterGive t n = latchedAfterGive s n := by
  unfold latchedAfterGive at hl ⊢
  rw [hw, hl]
  by_cases h3 : s.freeSegs.length < s.watermark ∧ s.watermark ≤ t.freeSegs.length
  · rw [if_pos h3, if_neg (by omega), if_pos (by omega)]
  · rw [if_neg h3]
    by_cases h4 : t.freeSegs.length < s.watermark ∧ s.watermark ≤ n
    · rw [if_pos h4, if_pos (by omega)]
    · rw [if_neg h4, if_neg (by omega)]

theorem chargedSide_congr (he : t.entry i = s.entry i) (hsrc : ∀ d, (t.chan d).source = (s.chan d).source) :
    chargedSide t i = chargedSide s i := by
  simp only [chargedSide, he, hsrc]

theorem Per.eq_of_get {α : Type} {p q : Per α} (h : ∀ y, p.get y = q.get y) : p = q := by
  have host : p.host = q.host := h .host
  have loc : p.loc = q.loc := h .loc
  cases p
  cases q
  exact congr (congrArg Per.mk host) loc

namespace Freed

theorem watermark (h : Freed l s t) : t.watermark = s.watermark := by rw [h.frame]
theorem jobs (h : Freed l s t) : t.jobs = s.jobs := by rw [h.frame]
theorem progress (h : Freed l s t) : t.progress = s.progress := by rw [h.frame]
theorem aperture (h : Freed l s t) : t.aperture = s.aperture := by rw [h.frame]

theorem nil (s : State) : Freed [] s s where
  entry k := by simp
  freeRecs := by simp
  freeSegs := by simp
  charge y := by simp
  latched := (latchedAfterGive_self s).symm
  source d := rfl
  frame := rfl

theorem entry_of_not_mem (h : Freed l s t) {k : RecIdx} (hk : k ∉ l) : t.entry k = s.entry k := by
  rw [h.entry, if_neg hk]

theorem trans (h : Freed l s t) (k : Freed m t u) (hd : (l ++ m).Nodup) : Freed (l ++ m) s u := by
  have other : ∀ j ∈ m, t.entry j = s.entry j := fun j hj =>
    h.entry_of_not_mem fun hl => (List.nodup_append.1 hd).2.2 j hl j hj rfl
  have segs : ∀ j ∈ m, segsOf t j = segsOf s j := fun j hj => segsOf_congr (other j hj)
  have back : m.flatMap (segsOf t) = m.flatMap (segsOf s) := List.flatMap_congr segs
  refine ⟨fun j => ?_, ?_, ?_, fun y => ?_, ?_, fun d => (k.source d).trans (h.source d), ?_⟩
  · rw [k.entry]
    by_cases hj : j ∈ m
    · rw [if_pos hj, if_pos (List.mem_append_right l hj), other j hj]
    · rw [if_neg hj, h.entry]
      exact if_congr (by rw [List.mem_append, or_iff_left hj]) rfl rfl
  · rw [k.freeRecs, h.freeRecs, List.append_assoc]
  · rw [k.freeSegs, h.freeSegs, back, List.append_assoc, List.flatMap_append]
  · have filter : (m.filter fun j => chargedSide t j == some y) = m.filter fun j => chargedSide s j == some y :=
      List.filter_congr fun j hj => by rw [chargedSide_congr (other j hj) h.source]
    have lengths : ((m.filter fun j => chargedSide s j == some y).map fun j => (segsOf t j).length) =
        (m.filter fun j => chargedSide s j == some y).map fun j => (segsOf s j).length :=
      List.map_congr_left fun j hj => by rw [segs j (List.mem_of_mem_filter hj)]
    rw [k.charge, h.charge, filter, lengths, List.filter_append, List.map_append, List.sum_append, Nat.sub_sub]
  · have len : t.freeSegs.length = s.freeSegs.length + (l.flatMap (segsOf s)).length := by rw [h.freeSegs, List.length_append]
    rw [k.latched, back, latchedAfterGive_trans h.watermark (by rw [h.latched, len]) (by omega) (by omega), len,
      List.flatMap_append, List.length_append, Nat.add_assoc]
  · rw [k.frame, h.frame]

/-- Records all charged to one side leave that side's charge with their segments. -/
theorem charge_eq (h : Freed l s t) (hx : ∀ k ∈ l, chargedSide s k = some x) :
    t.charge = s.charge.set x (s.charge.get x - (l.flatMap (segsOf s)).length) := by
  refine Per.eq_of_get fun y => ?_
  rw [h.charge, Per.get_set, List.length_flatMap]
  by_cases hy : y = x
  · have all : (l.filter fun k => chargedSide s k == some y) = l := List.filter_eq_self.2 fun k hk => by simp [hx k hk, hy]
    rw [if_pos hy, all, hy]
  · have none : (l.filter fun k => chargedSide s k == some y) = [] :=
      List.filter_eq_nil_iff.2 fun k hk => by simp [hx k hk, Ne.symm hy]
    rw [if_neg hy, none, List.map_nil, List.sum_nil, Nat.sub_zero]

end Freed

/-! ## One record -/

/-- An entry is freed in a state that differs from `s` in its channels alone. -/
theorem freeEntry_freed {segs : List SegNo} (hu : u = { s with chans := u.chans })
    (hsrc : ∀ d, (u.chan d).source = (s.chan d).source) (hside : chargedSide s i = some x) (hsegs : segsOf s i = segs) :
    Freed [i] s (freeEntry i x segs u) := by
  have entry : ∀ k, (freeEntry i x segs u).entry k =
      (s.setEntry i { gen := (s.entry i).gen + 1, custody := .free }).entry k := fun k => by
    rw [freeEntry_eq, hu]
    rfl
  refine ⟨fun k => ?_, ?_, ?_, fun y => ?_, ?_, fun d => ?_, ?_⟩
  · rw [entry]
    by_cases hk : k = i
    · rw [hk, entry_setEntry_same, if_pos (List.mem_singleton_self i)]
    · rw [entry_setEntry_other _ _ hk, if_neg (mt List.mem_singleton.1 hk)]
  · rw [freeEntry_eq, hu]
  · rw [freeEntry_eq, hu, List.flatMap_singleton, hsegs]
  · rw [freeEntry_eq, hu, Per.get_set]
    by_cases hy : y = x
    · simp [hy, hside, hsegs]
    · simp [hy, hside, Ne.symm hy]
  · rw [freeEntry_eq, hu, List.flatMap_singleton, hsegs]
    rfl
  · rw [← hsrc d, freeEntry_eq]
    rfl
  · rw [freeEntry_eq, hu]

/-- A record not bound to the aperture has nothing to unbind (R150). -/
theorem unbindFrom_of_ne (h : s.aperture ≠ some i) : unbindFrom i s = s := if_neg h

/-! ## Purges (R57, R78) -/

theorem settledBy_settledBy (n k : Nat) (ch : Channel) : settledBy k (settledBy n ch) = settledBy (n + k) ch := by
  simp only [settledBy, Nat.sub_sub, Channel.mk.injEq, true_and]
  omega

theorem settledBy_zero {ch : Channel} (h : ch.tally ≤ 65535) : settledBy 0 ch = ch := by
  simp only [settledBy, Nat.sub_zero, Nat.add_zero, Nat.min_eq_right h]

/-- A channel after one of its queued records is purged (R78). -/
def drainedOf (i : RecIdx) (ch : Channel) : Channel := { settledBy 1 ch with queue := ch.queue.erase i }

/-- A record in a queue is not bound to the aperture, nor filling: its purge drains the channel and frees the entry. -/
theorem purgeOne_eq {D : RecIdx → Prop} (hs : TableInv D s) {q : Queued} (hc : (s.entry i).custody = .queued q) :
    purgeOne q.chan s i =
      freeEntry i (s.chan q.chan).source q.buf.segs (s.setChan q.chan (drainedOf i (s.chan q.chan))) := by
  obtain ⟨-, -, hf⟩ := hs.queued hc
  have unbound : s.aperture ≠ some i := fun ha => by
    have := (hs.aperture i ha).1
    rw [heldBy_queued hc] at this
    cases this
  rw [purgeOne, settle_eq, retirePath, setChan_entry, hc]
  simp only [hf, dropCloneJob, Bool.false_eq_true, if_false, chan_setChan_same]
  rw [unbindFrom_of_ne (by rwa [setChan_aperture])]
  rfl

theorem purgeOne_freed {D : RecIdx → Prop} (hs : TableInv D s) (hm : i ∈ (s.chan c).queue) :
    Freed [i] s (purgeOne c s i) ∧ (purgeOne c s i).chan c = drainedOf i (s.chan c) ∧
      ∀ d, d ≠ c → (purgeOne c s i).chan d = s.chan d := by
  obtain ⟨q, hc, rfl⟩ := hs.queued_of_mem hm
  have chan : ∀ d, (purgeOne q.chan s i).chan d = (s.setChan q.chan (drainedOf i (s.chan q.chan))).chan d := fun d => by
    rw [purgeOne_eq hs hc, freeEntry_eq]
    rfl
  have same := (chan q.chan).trans (chan_setChan_same _ _ _)
  have other : ∀ d, d ≠ q.chan → (purgeOne q.chan s i).chan d = s.chan d := fun d hd => (chan d).trans (chan_setChan_other _ _ hd)
  refine ⟨?_, same, other⟩
  rw [purgeOne_eq hs hc]
  refine freeEntry_freed rfl (fun d => ?_) (chargedSide_queued hc) (segsOf_queued hc)
  by_cases hd : d = q.chan
  · rw [hd, chan_setChan_same]
    rfl
  · rw [chan_setChan_other _ _ hd]

/-- The records of a queue are purged from its head. -/
theorem purge_foldl_freed {D : RecIdx → Prop} (l : List RecIdx) (s : State) (hs : TableInv D s) (hl : (s.chan c).queue = l) :
    Freed l s (l.foldl (purgeOne c) s) ∧
      (l.foldl (purgeOne c) s).chan c = { settledBy l.length (s.chan c) with queue := [] } ∧
      ∀ d, d ≠ c → (l.foldl (purgeOne c) s).chan d = s.chan d := by
  induction l generalizing s with
  | nil =>
    refine ⟨.nil s, ?_, fun _ _ => rfl⟩
    rw [List.length_nil, settledBy_zero (hs.channelRanges c).2.2]
    show s.chan c = { s.chan c with queue := [] }
    rw [← hl]
  | cons i rest ih =>
    have hm : i ∈ (s.chan c).queue := hl ▸ List.mem_cons_self
    have nodup : (i :: rest).Nodup := hl ▸ (hs.queues c).1
    obtain ⟨freed, same, other⟩ := purgeOne_freed hs hm
    have queue : ((purgeOne c s i).chan c).queue = rest := by
      rw [same, drainedOf, hl]
      exact List.erase_cons_head i rest
    obtain ⟨freed', same', other'⟩ := ih _ ((purgeOne_moves hs hm).tableInv hs) queue
    refine ⟨freed.trans freed' nodup, ?_, fun d hd => (other' d hd).trans (other d hd)⟩
    rw [List.foldl_cons, same', same, List.length_cons, Nat.add_comm, ← settledBy_settledBy]
    rfl

theorem queuedOn_one (c : ChanNo) (s : State) : queuedOn (fun d => d == c) s = (s.chan c).queue := by
  have one : (List.finRange 12).filter (fun d => d == c) = [c] := by
    revert c
    decide
  rw [queuedOn, one, List.flatMap_singleton]

/-- A purge of one channel (R78). -/
theorem purgeQueue_spec {D : RecIdx → Prop} (hs : TableInv D s) (c : ChanNo) : QueuesPurged (fun d => d == c) s (purgeQueue c s) := by
  obtain ⟨freed, same, other⟩ := purge_foldl_freed (c := c) _ s hs rfl
  refine ⟨fun d => ?_, ?_⟩
  · by_cases hd : d = c
    · rw [hd, if_pos (beq_self_eq_true c)]
      exact same
    · rw [if_neg (by simpa using hd)]
      exact other d hd
  · rw [queuedOn_one]
    exact ⟨freed.entry, freed.freeRecs, freed.freeSegs, freed.charge, freed.latched, freed.frame⟩

theorem purgeRequest_admitted {args : List Byte} (ha : Admitted .purge x s) (hc : arg8 args 0 = BitVec.ofNat 8 c.val) :
    purgeRequest x args s = .accept [BitVec.ofNat 8 (s.chan c).queue.length] (purgeQueue c s) :=
  (whenPermitted_of ha.1 ha.2).trans (withChan_of hc _)

/-- Settles O50: PURGE has no check past its argument, and its effect is the purge of the channel. -/
theorem purgeRetiresTheQueue : Obligations.PurgeRetiresTheQueue := by
  intro v args s c hp ha hs hc
  have hk := purgeRequest_admitted (ha.entered v (reqCode .purge)) hc
  rw [entered_chan] at hk
  exact ⟨_, purgeQueue_spec (hs.entered v _).table c, exec_accept hp hk⟩

end Sys2Proof.Machine
end

section
/-! The expiry of a lease: the clones of the record's copies are freed, and the record is requeued. -/

namespace Sys2Proof.Machine

variable {s t u : State} {c : ChanNo} {i k : RecIdx} {h : Held} {l : List RecIdx}

/-! ## A clone without its job (R107) -/

/-- Record `k` is a filling clone whose job has been removed, and the aperture is not bound to it. -/
structure LoneClone (s : State) (k : RecIdx) (x : Side) : Prop where
  held : ∃ h, (s.entry k).custody = .held h ∧ h.holder = x ∧ h.buf.filling = true ∧ h.origin = none
  jobless : ∀ j ∈ s.jobs, j.clone ≠ k
  unbound : s.aperture ≠ some k

theorem LoneClone.charged {x : Side} (hk : LoneClone s k x) : chargedSide s k = some x := by
  obtain ⟨h, hc, hx, -⟩ := hk.held
  rw [chargedSide_held hc, hx]

/-- What makes a record a lone clone is kept while others are freed. -/
theorem LoneClone.of_freed {x : Side} (hk : LoneClone s k x) (hf : Freed l s t) (hl : k ∉ l) : LoneClone t k x where
  held := by
    rw [hf.entry_of_not_mem hl]
    exact hk.held
  jobless := by
    rw [hf.jobs]
    exact hk.jobless
  unbound := by
    rw [hf.aperture]
    exact hk.unbound

/-- Where no job is named the copy queue stays as it is (R105). -/
theorem removeJobs_none {p : Job → Bool} (h : ∀ j ∈ s.jobs, p j = false) : removeJobs p s = s := by
  have none : s.jobs.filter p = [] := List.filter_eq_nil_iff.2 fun j hj => by simp [h j hj]
  have all : (s.jobs.filter fun j => !p j) = s.jobs := List.filter_eq_self.2 fun j hj => by simp [h j hj]
  have progress : progressAfter p s.jobs s.progress = s.progress := by
    cases hj : s.jobs with
    | nil => rfl
    | cons j rest => rw [progressAfter, h j (by simp [hj])]; rfl
  rw [removeJobs, none, all, progress]
  rfl

/-- The retirement of a lone clone frees its entry and leaves the channels alone. -/
theorem LoneClone.retired {x : Side} (hk : LoneClone s k x) :
    Freed [k] s (retirePath k s) ∧ (retirePath k s).chans = s.chans := by
  have charged := hk.charged
  obtain ⟨⟨h, hc, hx, hf, ho⟩, jobless, unbound⟩ := hk
  have eq : retirePath k s = freeEntry k x h.buf.segs s := by
    have dropped : dropCloneJob k h.buf.filling s = s := by
      rw [hf, dropCloneJob, if_pos rfl, removeJobs_none fun j hj => by simpa using jobless j hj]
    rw [retirePath, hc]
    simp only [dropped, unbindFrom_of_ne unbound, ho, releaseOrigin, hx]
  rw [eq]
  exact ⟨freeEntry_freed rfl (fun _ => rfl) charged (segsOf_held hc), by rw [freeEntry_eq]⟩

theorem retireClones_freed {x : Side} (l : List RecIdx) (s : State) (hn : l.Nodup) (hl : ∀ k ∈ l, LoneClone s k x) :
    Freed l s (l.foldl (fun t k => retirePath k t) s) ∧ (l.foldl (fun t k => retirePath k t) s).chans = s.chans := by
  induction l generalizing s with
  | nil => exact ⟨.nil s, rfl⟩
  | cons k rest ih =>
    obtain ⟨freed, chans⟩ := (hl k List.mem_cons_self).retired
    obtain ⟨hk, hrest⟩ := List.nodup_cons.1 hn
    obtain ⟨freed', chans'⟩ := ih (retirePath k s) hrest fun m hm =>
      (hl m (List.mem_cons_of_mem k hm)).of_freed freed fun he => hk (List.mem_singleton.1 he ▸ hm)
    exact ⟨freed.trans freed' hn, chans'.trans chans⟩

/-! ## Step 1 of an expiry (R89, R107) -/

/-- The clones of the jobs record `i` is the source of, in queue order. -/
def clonesOf (s : State) (i : RecIdx) : List RecIdx := (s.jobs.filter fun j => j.source == i).map Job.clone

theorem abortCopies_eq (i : RecIdx) (s : State) :
    abortCopies i s = (clonesOf s i).foldl (fun t k => retirePath k t) (removeJobs (fun j => j.source == i) s) := by
  rw [abortCopies, clonesOf, List.foldl_map]

/-- Once the jobs are removed, each of their clones is a lone clone held by the source's holder. -/
theorem loneClone_of_removed (hs : TableInv.Full s) (hc : (s.entry i).custody = .held h) (hk : k ∈ clonesOf s i) :
    LoneClone (removeJobs (fun j => j.source == i) s) k h.holder := by
  obtain ⟨j, hj, rfl⟩ := List.mem_map.1 hk
  obtain ⟨hjobs, hsource⟩ := List.mem_filter.1 hj
  rw [beq_iff_eq] at hsource
  have removed := removeJobs_spec (fun j => j.source == i) s
  have table := hs.jobsRemoved fun j => j.source == i
  have side : h.holder = j.side := by
    have := (hs.jobs.source j hjobs).1
    rwa [hsource, heldBy_held hc] at this
  obtain ⟨heldBy, filling⟩ := hs.jobs.clone j hjobs
  rw [← removed.heldBy_eq] at heldBy
  rw [← removed.fillingOf_eq] at filling
  obtain ⟨m, hm, hside⟩ := heldBy_iff.1 heldBy
  have hmf : m.buf.filling = true := by rwa [fillingOf_held hm] at filling
  refine ⟨⟨m, hm, hside.trans side.symm, hmf, (table.filling hm hmf).2⟩, fun n hn he => ?_, fun ha => ?_⟩
  · rw [removed.1] at hn
    obtain ⟨hn, hne⟩ := List.mem_filter.1 hn
    have : n = j := List.inj_on_of_nodup_map hs.jobs.clonesNodup hn hjobs he
    simp [this, hsource] at hne
  · have := (table.aperture _ ha).2.1
    rw [filling] at this
    cases this

theorem clonesOf_nodup (hs : TableInv.Full s) (i : RecIdx) : (clonesOf s i).Nodup :=
  hs.jobs.clonesNodup.sublist (List.filter_sublist.map _)

/-- What step 1 of the expiry of record `i`, held by `x`, leaves: its jobs are gone, and their clones freed. -/
structure CopiesAborted (i : RecIdx) (x : Side) (s t : State) : Prop where
  jobs : t.jobs = s.jobs.filter fun j => j.source != i
  progress : t.progress = if (s.jobs.head?.any fun j => j.source == i) = true then 0 else s.progress
  gen : (t.entry i).gen = (s.entry i).gen
  others : ∀ k, k ≠ i → t.entry k = if k ∈ clonesOf s i then { gen := (s.entry k).gen + 1, custody := .free } else s.entry k
  freeRecs : t.freeRecs = s.freeRecs ++ clonesOf s i
  freeSegs : t.freeSegs = s.freeSegs ++ (clonesOf s i).flatMap (segsOf s)
  charge : t.charge = s.charge.set x (s.charge.get x - ((clonesOf s i).flatMap (segsOf s)).length)
  latched : t.latched = latchedAfterGive s (s.freeSegs.length + ((clonesOf s i).flatMap (segsOf s)).length)
  aperture : t.aperture = s.aperture
  chans : t.chans = s.chans

/-- The removal of the jobs of one source unpins no other record. -/
theorem entry_removeJobs_other (hk : k ≠ i) : (removeJobs (fun j => j.source == i) s).entry k = s.entry k := by
  obtain ⟨-, entry, -⟩ := removeJobs_spec (fun j => j.source == i) s
  have none : (s.jobs.filter fun j => j.source == i && j.source == k) = [] := by
    refine List.filter_eq_nil_iff.2 fun j _ => ?_
    simp only [Bool.and_eq_true, beq_iff_eq, not_and]
    exact fun hi he => hk (he.symm.trans hi)
  rw [entry, none, List.length_nil, unpinnedBy_zero]

theorem abortCopies_spec (hs : TableInv.Full s) (hc : (s.entry i).custody = .held h) (hf : h.buf.filling = false) :
    CopiesAborted i h.holder s (abortCopies i s) := by
  have lone := fun k (hk : k ∈ clonesOf s i) => loneClone_of_removed hs hc hk
  have notClone : i ∉ clonesOf s i := fun hi => by
    obtain ⟨j, hj, he⟩ := List.mem_map.1 hi
    have := (hs.jobs.clone j (List.mem_of_mem_filter hj)).2
    rw [he, fillingOf_held hc, hf] at this
    cases this
  obtain ⟨freed, chans⟩ := retireClones_freed _ _ (clonesOf_nodup hs i) lone
  have charge := freed.charge_eq fun k hk => (lone k hk).charged
  obtain ⟨jobs, entry, progress⟩ := removeJobs_spec (fun j => j.source == i) s
  have eq := removeJobs_eq (fun j => j.source == i) s
  have back : (clonesOf s i).flatMap (segsOf (removeJobs (fun j => j.source == i) s)) = (clonesOf s i).flatMap (segsOf s) :=
    List.flatMap_congr fun k _ => (removeJobs_edits _ s).segsOf_eq k
  rw [← abortCopies_eq] at freed charge chans
  have other := fun k (hk : k ≠ i) => entry_removeJobs_other (s := s) hk
  generalize removeJobs (fun j => j.source == i) s = r at *
  refine ⟨freed.jobs.trans jobs, freed.progress.trans progress, ?_, fun k hk => ?_, ?_, ?_, ?_, ?_, ?_, ?_⟩
  · rw [freed.entry_of_not_mem notClone, entry]
    rfl
  · rw [freed.entry, other k hk]
  · rw [freed.freeRecs, eq]
  · rw [freed.freeSegs, back, eq]
  · rw [charge, back, eq]
  · rw [freed.latched, back, eq]
    rfl
  · rw [freed.aperture, eq]
  · rw [chans, eq]

/-! ## The requeue (R74, R89) -/

@[simp] theorem entry_requeue_same (i : RecIdx) (c : ChanNo) (b : Buffer) (s : State) : (requeue i c b s).entry i =
    { gen := (s.entry i).gen + 1, custody := .queued { chan := c, buf := { b with pins := 0 } } } := by
  rw [requeue, setChan_entry, entry_setEntry_same]

theorem entry_requeue_other (c : ChanNo) (b : Buffer) (s : State) (hk : k ≠ i) : (requeue i c b s).entry k = s.entry k := by
  rw [requeue, setChan_entry, entry_setEntry_other _ _ hk]

@[simp] theorem chan_requeue_same (i : RecIdx) (c : ChanNo) (b : Buffer) (s : State) :
    (requeue i c b s).chan c = { s.chan c with queue := i :: (s.chan c).queue } := by
  rw [requeue, chan_setChan_same, setEntry_chan]

theorem chan_requeue_other {d : ChanNo} (i : RecIdx) (b : Buffer) (s : State) (hd : d ≠ c) :
    (requeue i c b s).chan d = s.chan d := by
  rw [requeue, chan_setChan_other _ _ hd, setEntry_chan]

/-! ## The expiry (R89) -/

@[simp] theorem Per.set_set {α : Type} (p : Per α) (x : Side) (a b : α) : (p.set x a).set x b = p.set x b := by cases x <;> rfl

theorem latch_latch (x : Side) (a b : Event) (s : State) :
    latch x b (latch x a s) = { s with latched := s.latched.set x (plus (plus (s.latched.get x) b) a) } := by
  simp only [latch, Per.get_set_same, Per.set_set, plus, BitVec.or_assoc, BitVec.or_comm (eventMask a)]

/-- The charge of a requeued record goes from its holder back to the source side of its channel (R74). -/
theorem charge_handBack (p : Per Nat) (x : Side) (a n : Nat) (s : State) (hp : s.charge = p.set (peer x) (p.get (peer x) - a)) :
    (moveCharge (peer x) x n s).charge = (p.set (peer x) (p.get (peer x) - a - n)).set x (p.get x + n) := by
  rw [moveCharge, addCharge_charge, subCharge_charge, hp]
  cases x <;> rfl

/-- The events an expiry latches at the former holder (R89, R107). -/
def expiryEvents (aborted : Bool) (m : EventSet) : EventSet :=
  if aborted then plus (plus m .leaseLost) .copyAborted else plus m .leaseLost

theorem expiryEvents_eq (p : Job → Bool) (l : List Job) (m : EventSet) :
    expiryEvents (l.any p) m = if l.filter p = [] then plus m .leaseLost else plus (plus m .leaseLost) .copyAborted := by
  by_cases hl : l.filter p = []
  · rw [if_pos hl, List.any_eq_false.2 (List.filter_eq_nil_iff.1 hl)]
    rfl
  · obtain ⟨j, hj⟩ := List.exists_mem_of_ne_nil _ hl
    obtain ⟨hmem, hp⟩ := List.mem_filter.1 hj
    rw [if_neg hl, List.any_eq_true.2 ⟨j, hmem, hp⟩]
    rfl

theorem expire_eq {v : State} (hv : unbindFrom i (abortCopies i s) = v) :
    expire i h c s =
      { requeue i c h.buf v with
        charge := (moveCharge h.holder (v.chan c).source h.buf.segs.length v).charge
        latched := v.latched.set h.holder (expiryEvents (s.jobs.any fun j => j.source == i) (v.latched.get h.holder)) } := by
  rw [expire, hv]
  cases s.jobs.any fun j => j.source == i with
  | false => rfl
  | true => exact latch_latch h.holder .copyAborted .leaseLost _

/-- A due record whose count stands at 1 expires (R85, R89); one renewed since counts down (R87). -/
theorem leaseExpiry_due {n : Nat} (hc : (s.entry i).custody = .held h) (ho : h.origin = some c)
    (hl : h.lease = some { remaining := n, due := true }) :
    leaseExpiry i s =
      if 2 ≤ n then setHeld i { h with lease := some { remaining := n - 1, due := false } } s else expire i h c s := by
  simp only [leaseExpiry, hc, hl, ho, if_true]

/-- With no report waiting at the record nothing happens (log 8). -/
theorem leaseExpiry_notDue (hn : ∀ h l, (s.entry i).custody = .held h → h.lease = some l → l.due = false) : leaseExpiry i s = s := by
  unfold leaseExpiry
  split
  · next h hc =>
    split
    · next l c hl ho => rw [hn h l hc hl, if_neg Bool.false_ne_true]
    · rfl
  · rfl

/-- Settles O42: the expiry is step 1, the unbinding and the requeue, each by what it leaves. -/
theorem leaseExpiryRequeuesTheRecord : Obligations.LeaseExpiryRequeuesTheRecord := by
  refine ⟨fun s i h c n hs hc ho hl => ⟨fun hn => ?_, fun hn => ?_⟩,
    fun s i hn => congrArg Host.Outcome.next (leaseExpiry_notDue hn)⟩
  · refine congrArg Host.Outcome.next ((leaseExpiry_due hc ho hl).trans ?_)
    rw [if_pos hn]
    rfl
  · intro gone clones back mine after lost
    have run : leaseExpiry i s = expire i h c s := (leaseExpiry_due hc ho hl).trans (if_neg (by omega))
    obtain ⟨holder, hf, -⟩ := hs.table.held_from hc ho
    obtain ⟨jobs, progress, gen, others, freeRecs, freeSegs, charge, latched, aperture, chans⟩ := abortCopies_spec hs.table hc hf
    have unbound := unbindFrom_eq i (abortCopies i s)
    have only := expire_tableOnly i h c s
    generalize hv : unbindFrom i (abortCopies i s) = v at unbound
    have eq := expire_eq (c := c) (h := h) hv
    have ve : ∀ k, v.entry k = (abortCopies i s).entry k := entry_eq_of_records (by rw [unbound])
    have vc : ∀ d, v.chan d = s.chan d := chan_eq_of_chans (by rw [unbound]; exact chans)
    have te : ∀ k, (expire i h c s).entry k = (requeue i c h.buf v).entry k := entry_eq_of_records (by rw [eq])
    have tc : ∀ d, (expire i h c s).chan d = (requeue i c h.buf v).chan d := chan_eq_of_chans (by rw [eq])
    refine ⟨expire i h c s, congrArg Host.Outcome.next run, ?_, fun k hk => ?_, ?_, ?_, ?_, ?_, ?_, ?_, fun d hd => ?_, ?_, ?_, only⟩
    · rw [te, entry_requeue_same, ve, gen]
    · rw [te, entry_requeue_other _ _ _ hk, ve, others k hk]
      rfl
    · rw [eq]
      exact (congrArg State.freeRecs unbound).trans freeRecs
    · rw [eq]
      exact (congrArg State.freeSegs unbound).trans freeSegs
    · rw [eq]
      exact (congrArg State.jobs unbound).trans jobs
    · rw [eq]
      exact (congrArg State.progress unbound).trans progress
    · rw [eq, ← aperture]
      exact congrArg State.aperture unbound
    · rw [tc, chan_requeue_same, vc]
    · rw [tc, chan_requeue_other _ _ _ hd, vc]
    · have hp := (congrArg State.charge unbound).trans charge
      rw [holder] at hp
      rw [eq, vc, holder]
      exact charge_handBack s.charge _ _ _ v hp
    · rw [eq, expiryEvents_eq, show v.latched = after from (congrArg State.latched unbound).trans latched]

end Sys2Proof.Machine
end

section
/-! The lease timer's count: RENEW, the prescaler, and what a lease tick makes of each record. -/

namespace Sys2Proof.Machine

variable {x : Side} {s : State} {i : RecIdx} {h : Held} {l : Lease} {e : Entry}

/-! ## RENEW (R86, R87) -/

/-- A HELD record replaced once the port has taken the request in. -/
theorem setHeld_entered (i : RecIdx) (h : Held) (v : Via) (code : Byte) (s : State) :
    setHeld i h (entered v code s) =
      { entered v code s with records := s.records.set i { gen := (s.entry i).gen, custody := .held h } } := by
  simp only [setHeld, State.setEntry, entered_records, entered_entry]

theorem originTime_entered (v : Via) (code : Byte) (s : State) (origin : Option ChanNo) :
    originTime (entered v code s) origin = originTime s origin := by
  cases origin with
  | none => rfl
  | some c => exact congrArg Channel.leaseTime (entered_chan v code s c)

/-- Past the record checks RENEW asks for a lease, and sets its count. -/
theorem renewRequest_held {args : List Byte} (ha : Admitted .renew x s) (hat : HeldAt (argHalf args 0) i h s) (hx : h.holder = x) :
    renewRequest x args s = demandSome h.lease .noLease fun l =>
      .accept (le16 (originTime s h.origin)) (setHeld i { h with lease := some { l with remaining := originTime s h.origin } } s) :=
  (whenPermitted_of ha.1 ha.2).trans (withHeld_of hat hx)

/-- Settles O40: past the record checks the lease alone decides, and the acceptance writes its count. -/
theorem renewRestartsTheLease : Obligations.RenewRestartsTheLease := by
  intro v args s i h hp ha hat hx
  have hk := renewRequest_held (ha.entered v (reqCode .renew)) (hat.entered v (reqCode .renew)) hx
  simp only [originTime_entered, setHeld_entered] at hk
  refine ⟨fun l c hl ho => exec_accept hp (hk.trans ?_), fun hl => exec_refuse hp (hk.trans ?_)⟩
  · rw [hl, ho]
    rfl
  · rw [hl]
    rfl

/-! ## The prescaler (R82) -/

theorem toNat_succ_prescaler {p : BitVec 10} (h : p ≠ 1023) : (p + 1).toNat = p.toNat + 1 := by bv_omega

theorem tclkCycle_advances (hr : s.nRESET = true) (hp : s.prescaler ≠ 1023) :
    tclkCycle s = { s with prescaler := s.prescaler + 1 } := by
  rw [tclkCycle, if_pos hr, if_neg hp]

theorem tclkCycle_wraps (hr : s.nRESET = true) (hp : s.prescaler = 1023) :
    tclkCycle s = { s with prescaler := 0, ticksDue := s.ticksDue + 1 } := by
  rw [tclkCycle, if_pos hr, if_pos hp, hp]
  rfl

theorem tclkCycle_inReset (hr : s.nRESET = false) : tclkCycle s = s := if_neg (by simp [hr])

/-! ## A lease at a tick (R85, R87) -/

/-- The count a tick finds at a lease, the decrement of an earlier tick that a RENEW put off being made first (R87, log 7). -/
def countAtTick (l : Lease) : Nat := if l.due = true ∧ 2 ≤ l.remaining then l.remaining - 1 else l.remaining

theorem tickLease_counts (hn : 2 ≤ countAtTick l) : tickLease l = { remaining := countAtTick l - 1, due := false } := if_pos hn

theorem tickLease_reports (hn : countAtTick l ≤ 1) : tickLease l = { remaining := countAtTick l, due := true } :=
  if_neg (Nat.not_le_of_lt (Nat.lt_succ_of_le hn))

/-! ## An entry at a tick (R85) -/

theorem tickEntry_leased (hc : e.custody = .held h) (hl : h.lease = some l) :
    tickEntry e = { gen := e.gen, custody := .held { h with lease := some (tickLease l) } } := by
  simp only [tickEntry, hc, hl, Option.map_some]

/-- A record with no lease is left as it was, whatever its state. -/
theorem tickEntry_unleased (hn : ∀ h, e.custody = .held h → h.lease = none) : tickEntry e = e := by
  obtain ⟨gen, custody⟩ := e
  cases custody with
  | free => rfl
  | queued q => rfl
  | held h =>
    have unleased : h.lease = none := hn h rfl
    obtain ⟨holder, origin, lease, buf⟩ := h
    subst unleased
    rfl

/-! ## The tick (R82, R85) -/

/-- The tick is taken from `ticksDue`, or from the cycles that produce it (log 6), and reaches every record. -/
theorem leaseTick_eq (hr : s.nRESET = true) : leaseTick s =
    { s with records := s.records.map tickEntry, prescaler := if s.ticksDue = 0 then 0 else s.prescaler,
             ticksDue := s.ticksDue - 1 } := by
  rw [leaseTick, if_pos hr]
  by_cases hd : s.ticksDue = 0
  · rw [if_pos hd, if_pos hd, hd]
    rfl
  · rw [if_neg hd, if_neg hd]
    rfl

theorem leaseTick_inReset (hr : s.nRESET = false) : leaseTick s = s := if_neg (by simp [hr])

theorem entry_leaseTick (hr : s.nRESET = true) (i : RecIdx) : (leaseTick s).entry i = tickEntry (s.entry i) := by
  rw [← entry_tickAll]
  exact entry_eq_of_records (congrArg State.records (leaseTick_eq hr)) i

/-- Settles O41: a cycle by what the prescaler finds; a tick by what it makes of each entry, and of the rest. -/
theorem ticksCountTheLeasesDown : Obligations.TicksCountTheLeasesDown := by
  refine ⟨fun s => ⟨fun hr hp => ?_, fun hr hp => congrArg Host.Outcome.next (tclkCycle_wraps hr hp),
    fun hr => congrArg Host.Outcome.next (tclkCycle_inReset hr)⟩, fun s hr => ?_,
    fun s hr => congrArg Host.Outcome.next (leaseTick_inReset hr)⟩
  · exact ⟨s.prescaler + 1, toNat_succ_prescaler hp, congrArg Host.Outcome.next (tclkCycle_advances hr hp)⟩
  · refine ⟨leaseTick s, rfl, fun i h l hc hl => ?_, fun i hn => ?_, ?_⟩
    · have entry := (entry_leaseTick hr i).trans (tickEntry_leased hc hl)
      refine ⟨fun hn => entry.trans ?_, fun hn => entry.trans ?_⟩
      · rw [tickLease_counts hn]
        rfl
      · rw [tickLease_reports hn]
        rfl
    · exact (entry_leaseTick hr i).trans (tickEntry_unleased hn)
    · rw [leaseTick_eq hr]

end Sys2Proof.Machine
end

section
/-! Requests on a record the requester holds: RECORD_BUSY, the bounds of a record's data, and OPEN. -/

namespace Sys2Proof.Machine

variable {r : Req} {x : Side} {s : State} {args : List Byte} {i : RecIdx} {h : Held}

/-! ## From step 6 on (R138, R140, R141, R144) -/

theorem setlenRequest_held (ha : Admitted .setlen x s) (hr : ArgsInRange .setlen args) (hat : HeldAt (argHalf args 0) i h s)
    (hx : h.holder = x) :
    setlenRequest x args s =
      demand (h.buf.pins = 0 ∧ h.buf.filling = false) .recordBusy (demand (arg16 args 2 ≤ h.buf.length) .range
        (.accept (le16 (arg16 args 2)) (mapBuf i (fun b => { b with length := arg16 args 2 }) s))) :=
  (whenPermitted_of ha.1 ha.2).trans ((demand_pos hr).trans (withHeld_of hat hx))

theorem writeRequest_held (ha : Admitted .write x s) (hr : ArgsInRange .write args) (hat : HeldAt (argHalf args 0) i h s)
    (hx : h.holder = x) :
    writeRequest x args s =
      demand (h.buf.pins = 0 ∧ h.buf.filling = false) .recordBusy (demand (arg16 args 2 ≤ h.buf.length) .range
        (demand (arg16 args 2 + (args.drop 4).length ≤ h.buf.capacity) .range
          (.accept (le16 (max h.buf.length (arg16 args 2 + (args.drop 4).length)))
            (writeRecord i h.buf (arg16 args 2) (args.drop 4) s)))) :=
  (whenPermitted_of ha.1 ha.2).trans ((demand_pos hr).trans (withHeld_of hat hx))

theorem readRequest_held (ha : Admitted .read x s) (hr : ArgsInRange .read args) (hat : HeldAt (argHalf args 0) i h s)
    (hx : h.holder = x) :
    readRequest x args s =
      demand (h.buf.filling = false) .recordBusy (demand (arg16 args 2 + arg16 args 4 ≤ h.buf.capacity) .range
        (.accept (le16 h.buf.length ++ readRun s.store h.buf (arg16 args 2) (arg16 args 4)) s)) :=
  (whenPermitted_of ha.1 ha.2).trans ((demand_pos hr).trans (withHeld_of hat hx))

theorem openRequest_held (ha : Admitted .openRec x s) (hat : HeldAt (argHalf args 0) i h s) (hx : h.holder = x) :
    openRequest x args s =
      demand (h.buf.filling = false) .recordBusy
        (.accept (le16 h.buf.length ++ le16 h.buf.capacity) { s with aperture := some i }) :=
  (whenPermitted_of ha.1 ha.2).trans (withHeld_of hat hx)

/-- Past the record checks POST asks first whether the record is busy. -/
theorem postRequest_busyCheck (ha : Admitted .post x s) (hr : ArgsInRange .post args) (hat : HeldAt (argHalf args 0) i h s)
    (hx : h.holder = x) :
    ∃ k, postRequest x args s = demand (h.buf.pins = 0 ∧ h.buf.filling = false) .recordBusy k := by
  obtain ⟨c, hc⟩ := chanOfByte_of_le hr.1
  obtain ⟨reply, hreply⟩ := replyOfByte_of_le hr.2
  exact ⟨_, (whenPermitted_of ha.1 ha.2).trans ((post_channels hc hreply _).trans (withHeld_of hat hx))⟩

/-- Past the record checks RETURN asks first whether the record is busy. -/
theorem returnRequest_busyCheck (ha : Admitted .ret x s) (hat : HeldAt (argHalf args 0) i h s) (hx : h.holder = x) :
    ∃ k, returnRequest x args s = demand (h.buf.pins = 0 ∧ h.buf.filling = false) .recordBusy k :=
  ⟨_, (whenPermitted_of ha.1 ha.2).trans (withHeld_of hat hx)⟩

/-! ## RECORD_BUSY (R101, R137) -/

/-- The requests that neither a pinned nor a filling record admits (R101). -/
def wantsIdleRecord : List Req := [.setlen, .write, .post, .ret]

theorem handlerOf_busyCheck (hm : r ∈ wantsIdleRecord) (ha : Admitted r x s) (hr : ArgsInRange r args)
    (hat : HeldAt (argHalf args 0) i h s) (hx : h.holder = x) :
    ∃ k, handlerOf r x args s = demand (h.buf.pins = 0 ∧ h.buf.filling = false) .recordBusy k := by
  simp only [wantsIdleRecord, List.mem_cons, List.not_mem_nil, or_false] at hm
  rcases hm with rfl | rfl | rfl | rfl
  · exact ⟨_, setlenRequest_held ha hr hat hx⟩
  · exact ⟨_, writeRequest_held ha hr hat hx⟩
  · exact postRequest_busyCheck ha hr hat hx
  · exact returnRequest_busyCheck ha hat hx

theorem not_idle_of_busy {b : Buffer} (hb : b.pins ≠ 0 ∨ b.filling = true) : ¬(b.pins = 0 ∧ b.filling = false) := by
  rintro ⟨hp, hf⟩
  rcases hb with hb | hb
  · exact hb hp
  · simp [hf] at hb

/-- Settles O22: each request comes to one chain of checks on the record, and each refusal is its place in the chain. -/
theorem busyRecordsAndBoundsAreRefused : Obligations.BusyRecordsAndBoundsAreRefused := by
  intro r v args s i h hp ha hr hat hx refuse o
  have ha' := ha.entered v (reqCode r)
  have hat' := hat.entered v (reqCode r)
  refine ⟨fun hm hb => ?_, fun he hf => ?_, fun hf => ⟨fun he hpins hlen => ?_, fun he hpins hbad => ?_, fun he hcap => ?_⟩⟩
  · obtain ⟨k, hk⟩ := handlerOf_busyCheck hm ha' hr hat' hx
    exact exec_refuse hp (hk.trans (demand_neg (not_idle_of_busy hb)))
  · subst he
    exact exec_refuse hp ((readRequest_held ha' hr hat' hx).trans (demand_neg (by simp [hf])))
  · subst he
    have hk := (setlenRequest_held ha' hr hat' hx).trans (demand_pos ⟨hpins, hf⟩)
    exact exec_refuse hp (hk.trans (demand_neg (Nat.not_le_of_lt hlen)))
  · subst he
    have hk := (writeRequest_held ha' hr hat' hx).trans (demand_pos ⟨hpins, hf⟩)
    refine exec_refuse hp (hk.trans (demand_refuse fun hlen => demand_neg ?_))
    exact Nat.not_le_of_lt (hbad.resolve_left (Nat.not_lt_of_le hlen))
  · subst he
    have hk := (readRequest_held ha' hr hat' hx).trans (demand_pos hf)
    exact exec_refuse hp (hk.trans (demand_neg (Nat.not_le_of_lt hcap)))

/-! ## OPEN (R144) -/

/-- Settles O32: past the record checks OPEN has one check, and its effect is the binding. -/
theorem openBindsTheAperture : Obligations.OpenBindsTheAperture := by
  intro v args s i h hp ha hat hx
  have hk := openRequest_held (ha.entered v (reqCode .openRec)) (hat.entered v _) hx
  exact ⟨fun hf => exec_accept hp (hk.trans (demand_pos hf)), fun hf => exec_refuse hp (hk.trans (demand_neg (by simp [hf])))⟩

end Sys2Proof.Machine
end

section
/-! The Copy Engine: CLONE's checks and effect, one copy step, and the completion of the active job. -/

namespace Sys2Proof.Machine

variable {x : Side} {s : State} {i c : RecIdx} {h : Held} {j : Job} {rest : List Job} {src dst : Buffer}

/-! ## CLONE (R96, R97) -/

/-- The segments a clone takes, as R96 counts them. -/
theorem cloneSegs_eq (len : Nat) : cloneSegs len = if len = 0 then 1 else (len + 127) / 128 := by
  unfold cloneSegs segsFor segBytes
  split <;> omega

/-- From step 6 on CLONE has two checks of its own, and then the resource checks. -/
theorem cloneRequest_held {args : List Byte} (ha : Admitted .clone x s) (hat : HeldAt (argHalf args 0) i h s) (hx : h.holder = x) :
    cloneRequest x args s =
      demand (h.buf.filling = false) .recordBusy (demand (s.jobs.length < 4) .queueFull
        (withResources x (cloneSegs h.buf.length) s fun c =>
          .accept (half16 (currentHandle s c) ++ [BitVec.ofNat 8 s.jobs.length]) (makeClone x i c h.buf s))) :=
  (whenPermitted_of ha.1 ha.2).trans (withHeld_of hat hx)

/-- Settles O36: CLONE comes to one chain of checks, and each refusal is its place in the chain. -/
theorem cloneChecksInOrder : Obligations.CloneChecksInOrder := by
  intro v args s i h hp ha hat hx n refuse
  have hn : cloneSegs h.buf.length = n := cloneSegs_eq _
  have hk := cloneRequest_held (ha.entered v (reqCode .clone)) (hat.entered v _) hx
  rw [entered_jobs, hn] at hk
  refine ⟨fun hf => exec_refuse hp (hk.trans (demand_neg (by simp [hf]))), fun hf => ?_⟩
  replace hk := hk.trans (demand_pos hf)
  refine ⟨fun hfull => exec_refuse hp (hk.trans (demand_neg (Nat.not_lt_of_le hfull))), fun hfew => ?_⟩
  replace hk := hk.trans (demand_pos hfew)
  refine ⟨fun hq => exec_refuse hp (hk.trans ?_), fun hq => ⟨fun hr => exec_refuse hp (hk.trans ?_),
    fun hr hs => exec_refuse hp (hk.trans ?_)⟩⟩
  · exact withResources_overQuota (by rwa [entered_charge, entered_quota])
  · exact withResources_noRecord (by rwa [entered_charge, entered_quota]) (by rwa [entered_freeRecs])
  · exact withResources_noSpace (by rwa [entered_charge, entered_quota]) (by rwa [entered_freeRecs]) (by rwa [entered_freeSegs])

theorem entry_takeRecord_other {k : RecIdx} (hk : k ≠ i) (n len : Nat) (tag : Half) (f : Bool) :
    (takeRecord i x n len tag f s).entry k = s.entry k := by
  rw [takeRecord_eq]
  exact entry_setEntry_other s _ hk

/-- The clone of a HELD record, whole: the take of record `c`, one pin more on the source, and the job at the queue's end (R97). -/
theorem makeClone_eq (hc : (s.entry i).custody = .held h) (hic : i ≠ c) :
    makeClone x i c h.buf s =
      { s with
        freeRecs := s.freeRecs.tail
        freeSegs := s.freeSegs.drop (cloneSegs h.buf.length)
        records := (s.records.set c
          { gen := (s.entry c).gen,
            custody := .held
              { holder := x, origin := none, lease := none,
                buf := newBuffer (s.freeSegs.take (cloneSegs h.buf.length)) h.buf.length h.buf.tag true } }).set i
          { gen := (s.entry i).gen, custody := .held { h with buf := { h.buf with pins := h.buf.pins + 1 } } }
        charge := s.charge.set x (s.charge.get x + cloneSegs h.buf.length)
        latched := latchedAfterTake s (s.freeSegs.length - cloneSegs h.buf.length)
        jobs := s.jobs ++ [{ source := i, clone := c, side := x }]
        progress := if s.jobs = [] then 0 else s.progress } := by
  have source := entry_takeRecord_other (x := x) (s := s) hic (cloneSegs h.buf.length) h.buf.length h.buf.tag true
  unfold makeClone
  dsimp only
  rw [mapBuf_held (h := h) (by rw [source, hc]), setHeld, source, takeRecord_eq]
  simp only [List.isEmpty_iff]
  rfl

/-- Settles O37: the source is no FREE record, so the take leaves it, and the clone is made as its rule says. -/
theorem cloneMakesAJob : Obligations.CloneMakesAJob := by
  intro v args s i c h rest hp ha hat hx hf hfree n t hfew hq hc hspace
  have hn : cloneSegs h.buf.length = n := cloneSegs_eq _
  have ⟨_, _, hheld⟩ := hat
  have hic : i ≠ c := by
    rintro rfl
    have := (hfree.2 i).1 (hc ▸ List.mem_cons_self)
    simp [hheld] at this
  have hk := cloneRequest_held (ha.entered v (reqCode .clone)) (hat.entered v _) hx
  rw [entered_jobs, hn] at hk
  replace hk := hk.trans <| (demand_pos hf).trans <| (demand_pos hfew).trans <|
    withResources_of (i := c) (rest := rest) (by rwa [entered_charge, entered_quota]) (by rwa [entered_freeRecs])
      (by rwa [entered_freeSegs])
  refine (exec_accept hp hk).trans ?_
  rw [makeClone_eq (by rwa [entered_entry]) hic, hn, currentHandle, entered_entry, entered_entry, entered_records,
    entered_freeRecs, entered_freeSegs, entered_charge, entered_jobs, entered_progress, entered_latchedAfterTake, hc]
  rfl

/-! ## The steps of a job (R100, R103) -/

theorem lengthOf_of_buf? {b : Buffer} (hb : (s.entry i).custody.buf? = some b) : lengthOf s i = b.length := by
  rw [lengthOf, hb]
  rfl

/-- A job's steps are all taken when they cover the source's length. -/
theorem jobSteps_le_iff (hsrc : (s.entry j.source).custody.buf? = some src) {n : Nat} :
    jobSteps s j ≤ n ↔ src.length ≤ 128 * n := by
  rw [jobSteps, lengthOf_of_buf? hsrc, segsFor, segBytes]
  omega

/-! ## Runs of bytes -/

theorem readByte_eq_byteAt (m : Memory) (b : Buffer) (o : Nat) : readByte m b o = byteAt m b o := by
  unfold readByte byteAt
  cases recAddr b o <;> rfl

theorem readRun_eq (m : Memory) (b : Buffer) (o count : Nat) :
    readRun m b o count = (List.range count).map fun k => byteAt m b (o + k) := by
  simp only [readRun, readByte_eq_byteAt]

/-- A run written into a record with distinct segments stands at its offsets, and nowhere else. -/
theorem writeRun_runStored {m : Memory} {b : Buffer} (hw : Memory.wf m) (hd : b.segs.Nodup) (o : Nat) (data : List Byte) :
    RunStored b o data m (writeRun m b o data) := by
  refine ⟨fun k d hk a ha => ?_, fun a ha => read_writeRun_other m b o data a hw ha⟩
  obtain ⟨hlt, rfl⟩ := List.getElem?_eq_some_iff.1 hk
  exact read_writeRun_same m b o data hd hw k hlt a ha

/-- What the step at position `k` stores: the source's bytes of that position, at the same offsets of the clone (R103). -/
theorem copySegment_runStored {m : Memory} (hw : Memory.wf m) (hd : dst.segs.Nodup) (k : Nat) :
    RunStored dst (128 * k) ((List.range (min 128 (src.length - 128 * k))).map fun o => byteAt m src (128 * k + o)) m
      (copySegment m src dst k) := by
  rw [copySegment, segBytes, readRun_eq]
  exact writeRun_runStored hw hd _ _

/-! ## COPY_STEP (R103) -/

theorem copyStep_idle (hj : s.jobs = []) : copyStep s = s := by
  rw [copyStep, hj]

theorem copyStep_due (hj : s.jobs = j :: rest) (hsrc : (s.entry j.source).custody.buf? = some src)
    (hdst : (s.entry j.clone).custody.buf? = some dst) (hleft : 128 * s.progress < src.length) :
    copyStep s = { s with store := copySegment s.store src dst s.progress, progress := s.progress + 1 } := by
  have due : s.progress < jobSteps s j := Nat.lt_of_not_le fun hn => Nat.not_le_of_lt hleft ((jobSteps_le_iff hsrc).1 hn)
  simp only [copyStep, hj, hsrc, hdst, if_pos due]

theorem copyStep_noneLeft (hj : s.jobs = j :: rest) (hsrc : (s.entry j.source).custody.buf? = some src)
    (hdone : src.length ≤ 128 * s.progress) : copyStep s = s := by
  have done : ¬s.progress < jobSteps s j := Nat.not_lt_of_le ((jobSteps_le_iff hsrc).2 hdone)
  simp only [copyStep, hj, hsrc]
  cases (s.entry j.clone).custody.buf? with
  | none => rfl
  | some dst => exact if_neg done

/-- Settles O38: a step that is due stores one run of bytes, and one that is not does nothing. -/
theorem copyStepCopiesOneSegment : Obligations.CopyStepCopiesOneSegment := by
  refine ⟨fun s j rest src dst hj hsrc hdst hw hd hleft => ?_, fun s hj => congrArg Host.Outcome.next (copyStep_idle hj),
    fun s j rest src hj hsrc hdone => congrArg Host.Outcome.next (copyStep_noneLeft hj hsrc hdone)⟩
  exact ⟨_, copySegment_runStored hw hd s.progress, congrArg Host.Outcome.next (copyStep_due hj hsrc hdst hleft)⟩

/-! ## COPY_COMPLETION (R104) -/

/-- The records once job `j` has completed. -/
def completedRecords (j : Job) (s : State) : Vector Entry 128 :=
  (unpin j.source (mapBuf j.clone (fun b => { b with filling := false }) s)).records

theorem gen_mapBuf (i k : RecIdx) (f : Buffer → Buffer) (s : State) : ((mapBuf i f s).entry k).gen = (s.entry k).gen := by
  by_cases hk : k = i
  · rw [hk, entry_mapBuf_same]
  · rw [entry_mapBuf_other f s hk]

theorem getElem_completedRecords (j : Job) (s : State) (k : RecIdx) :
    (completedRecords j s)[k] = { gen := (s.entry k).gen, custody := (s.entry k).custody.mapBuf (completedBuffer j k) } := by
  have gen : ((unpin j.source (mapBuf j.clone (fun b => { b with filling := false }) s)).entry k).gen = (s.entry k).gen :=
    (gen_mapBuf j.source k _ _).trans (gen_mapBuf j.clone k _ s)
  rw [← gen, ← completed_custody]
  rfl

theorem copyCompletion_idle (hj : s.jobs = []) : copyCompletion s = s := by
  rw [copyCompletion, hj]

theorem copyCompletion_due (hj : s.jobs = j :: rest) (hsrc : (s.entry j.source).custody.buf? = some src)
    (hdone : src.length ≤ 128 * s.progress) :
    copyCompletion s =
      { s with records := completedRecords j s, jobs := rest, progress := 0,
               latched := s.latched.set j.side (plus (s.latched.get j.side) .copyDone) } := by
  simp only [copyCompletion, hj, if_pos ((jobSteps_le_iff hsrc).2 hdone)]
  rfl

theorem copyCompletion_stepLeft (hj : s.jobs = j :: rest) (hsrc : (s.entry j.source).custody.buf? = some src)
    (hleft : 128 * s.progress < src.length) : copyCompletion s = s := by
  have left : ¬jobSteps s j ≤ s.progress := fun hn => Nat.not_le_of_lt hleft ((jobSteps_le_iff hsrc).1 hn)
  simp only [copyCompletion, hj, if_neg left]

/-- Settles O39: the completion by what it leaves of each record; before the last step it does nothing. -/
theorem copyCompletionEndsTheJob : Obligations.CopyCompletionEndsTheJob := by
  refine ⟨fun s j rest src hj hsrc hdone => ?_, fun s hj => congrArg Host.Outcome.next (copyCompletion_idle hj),
    fun s j rest src hj hsrc hleft => congrArg Host.Outcome.next (copyCompletion_stepLeft hj hsrc hleft)⟩
  exact ⟨completedRecords j s, getElem_completedRecords j s, congrArg Host.Outcome.next (copyCompletion_due hj hsrc hdone)⟩

end Sys2Proof.Machine
end

section
/-! The sessions: their beginning, the start of a sweep, its steps, and its completion with the purge of several channels. -/

namespace Sys2Proof.Machine

variable {s t u : State} {x : Side} {i : RecIdx}

/-! ## ATTACH (R115, R116) -/

theorem attachSide_eq (x : Side) (s : State) :
    attachSide x s =
      { s with session := s.session.set x .attached, enables := s.enables.set x 0,
               latched := (s.latched.set x 0).set (peer x) (plus (s.latched.get (peer x)) .peerUp) } := by
  rw [attachSide, latch, Per.get_set_peer]

/-- Both sides may ask for a session (R13), and step 2 passes from DETACHED and from ATTACHED (R14). -/
theorem attachRequest_passes (args : List Byte) (h : s.session.get x = .attached ∨ s.session.get x = .detached) :
    attachRequest x args s = .accept [BitVec.ofNat 8 (sessionCode (s.session.get (peer x)))]
      (if s.session.get x = .detached then attachSide x s else s) :=
  whenPermitted_pass (by cases x <;> rfl) (sessionCheck_pass (h.imp_right fun hd => Or.inr ⟨rfl, hd⟩))

/-- Settles O52: step 2 passes from either state, and the effect depends on which it was. -/
theorem attachBeginsTheSession : Obligations.AttachBeginsTheSession := by
  intro v args s hp x t state
  have answer : BitVec.ofNat 8 (sessionCode (t.session.get (peer x))) = state := by
    simp only [t, state, entered_session]
    cases s.session.get (peer x) <;> rfl
  have ses : t.session.get x = s.session.get x := by simp only [t, entered_session]
  refine ⟨fun hd => ?_, fun ha => ?_⟩
  · refine (exec_accept hp (attachRequest_passes args (Or.inr (ses.trans hd)))).trans ?_
    rw [answer, if_pos (ses.trans hd), attachSide_eq, entered_session, entered_enables, entered_latched]
  · refine (exec_accept hp (attachRequest_passes args (Or.inl (ses.trans ha)))).trans ?_
    rw [answer, if_neg (by rw [ses.trans ha]; exact Session.noConfusion)]

/-! ## DETACH and EVICT (R117, R118) -/

theorem detachRequest_admitted (args : List Byte) (ha : Admitted .detach x s) :
    detachRequest x args s = .accept [] (startSweep x s) :=
  whenPermitted_of ha.1 ha.2

theorem evictRequest_admitted (args : List Byte) (ha : Admitted .evict x s) :
    evictRequest x args s = demand (s.session.host = .attached) .peerAbsent (.accept [] (startSweep .host s)) :=
  whenPermitted_of ha.1 ha.2

/-- Settles O53: each accepted request's effect is the start of a sweep, and its rule says what that does. -/
theorem leavingStartsTheSweep : Obligations.LeavingStartsTheSweep := by
  refine ⟨fun v args s hp ha => ?_, fun v args s hp ha => ⟨fun hh => ?_, fun hh => ?_⟩⟩
  · exact ⟨_, startSweep_spec v.side _, exec_accept hp (detachRequest_admitted args (ha.entered v _))⟩
  · have here : (entered v (reqCode .evict) s).session.host = .attached := by rwa [entered_session]
    exact ⟨_, startSweep_spec .host _, exec_accept hp ((evictRequest_admitted args (ha.entered v _)).trans (demand_pos here))⟩
  · have absent : (entered v (reqCode .evict) s).session.host ≠ .attached := by rwa [entered_session]
    exact exec_refuse hp ((evictRequest_admitted args (ha.entered v _)).trans (demand_neg absent))

/-! ## The steps of a sweep (R122, R123) -/

theorem sweepAfter_eq (i : RecIdx) : sweepAfter i = if i = 127 then .done else .next (i + 1) := by
  by_cases hi : i = 127
  · rw [hi]
    rfl
  · have lt : i.val < 127 := Fin.val_lt_last (n := 127) hi
    rw [if_neg hi, sweepAfter, dif_pos (Nat.succ_lt_succ lt)]
    exact congrArg SweepPos.next (Fin.ext (Fin.val_add_one_of_lt lt).symm)

theorem sweepRecord_own {h : Held} (hc : (s.entry i).custody = .held h) (hx : h.holder = x) :
    sweepRecord x i s = retirePath i s := by
  simp only [sweepRecord, hc, if_pos hx]

theorem sweepRecord_other (hn : ∀ h, (s.entry i).custody = .held h → h.holder ≠ x) : sweepRecord x i s = s := by
  unfold sweepRecord
  split
  · next h hc => exact if_neg (hn h hc)
  · rfl

theorem sweepStep_due (hi : s.session.get x = .sweeping (.next i)) :
    sweepStep x s =
      { sweepRecord x i s with session := s.session.set x (.sweeping (if i = 127 then .done else .next (i + 1))) } := by
  simp only [sweepStep, hi, (sweepRecord_tableOnly x i s).session, sweepAfter_eq]

theorem sweepStep_notDue (hn : ∀ i, s.session.get x ≠ .sweeping (.next i)) : sweepStep x s = s := by
  unfold sweepStep
  split
  · next i hi => exact absurd hi (hn i)
  · rfl

/-- Settles O54: by whether a step is due, and whether the side holds the record at the position. -/
theorem sweepStepRetiresWhatTheSideHolds : Obligations.SweepStepRetiresWhatTheSideHolds := by
  refine fun s x => ⟨fun i hi => ⟨fun h hc hx => ?_, fun hn => ?_⟩, fun hn => congrArg Host.Outcome.next (sweepStep_notDue hn)⟩
  · refine ⟨retirePath i s, retirePath_held i h s hc, congrArg Host.Outcome.next ?_⟩
    rw [sweepStep_due hi, sweepRecord_own hc hx]
  · refine congrArg Host.Outcome.next ?_
    rw [sweepStep_due hi, sweepRecord_other hn]

/-! ## The purge of several channels (R78, R125) -/

/-- A channel whose whole queue has been purged (R57). -/
def emptiedOf (ch : Channel) : Channel := { settledBy ch.queue.length ch with queue := [] }

/-- The queues of the channels `l` have been purged in that order, each from its head. -/
structure Emptied (l : List ChanNo) (s t : State) : Prop where
  freed : Freed (l.flatMap fun c => (s.chan c).queue) s t
  chan : ∀ c, t.chan c = if c ∈ l then emptiedOf (s.chan c) else s.chan c

/-- A record stands in one queue at most, and once (R48). -/
theorem TableInv.queues_nodup {D : RecIdx → Prop} (hs : TableInv D s) {l : List ChanNo} (hl : l.Nodup) :
    (l.flatMap fun c => (s.chan c).queue).Nodup := by
  refine List.nodup_flatMap.2 ⟨fun c _ => (hs.queues c).1, hl.imp fun {c d} hcd k hc hd => ?_⟩
  obtain ⟨q, hq, rfl⟩ := hs.queued_of_mem hc
  obtain ⟨r, hr, rfl⟩ := hs.queued_of_mem hd
  exact hcd (by rw [Custody.queued.inj (hq.symm.trans hr)])

namespace Emptied

theorem nil (s : State) : Emptied [] s s := ⟨.nil s, fun _ => (if_neg List.not_mem_nil).symm⟩

theorem of_purgeQueue {D : RecIdx → Prop} (hs : TableInv D s) (c : ChanNo) : Emptied [c] s (purgeQueue c s) := by
  obtain ⟨freed, same, other⟩ := purge_foldl_freed (c := c) _ s hs rfl
  refine ⟨by rw [List.flatMap_singleton]; exact freed, fun d => ?_⟩
  by_cases hd : d = c
  · rw [hd, if_pos (List.mem_singleton_self c)]
    exact same
  · rw [if_neg (mt List.mem_singleton.1 hd)]
    exact other d hd

theorem chan_of_not_mem {l : List ChanNo} (h : Emptied l s t) (hc : c ∉ l) : t.chan c = s.chan c := by
  rw [h.chan, if_neg hc]

theorem trans {D : RecIdx → Prop} {l m : List ChanNo} (hs : TableInv D s) (h : Emptied l s t) (k : Emptied m t u)
    (hd : (l ++ m).Nodup) : Emptied (l ++ m) s u := by
  have untouched : ∀ c ∈ m, t.chan c = s.chan c := fun c hc =>
    h.chan_of_not_mem fun hl => (List.nodup_append.1 hd).2.2 c hl c hc rfl
  have queues : (m.flatMap fun c => (t.chan c).queue) = m.flatMap fun c => (s.chan c).queue :=
    List.flatMap_congr fun c hc => by rw [untouched c hc]
  refine ⟨?_, fun c => ?_⟩
  · have later := k.freed
    rw [queues] at later
    have nodup := hs.queues_nodup hd
    rw [List.flatMap_append] at nodup ⊢
    exact h.freed.trans later nodup
  · rw [k.chan]
    by_cases hc : c ∈ m
    · rw [if_pos hc, if_pos (List.mem_append_right l hc), untouched c hc]
    · rw [if_neg hc, h.chan]
      exact if_congr (by rw [List.mem_append, or_iff_left hc]) rfl rfl

theorem queuesPurged {gone : ChanNo → Bool} (h : Emptied ((List.finRange 12).filter gone) s t) : QueuesPurged gone s t := by
  obtain ⟨freed, chan⟩ := h
  refine ⟨fun c => ?_, freed.entry, freed.freeRecs, freed.freeSegs, freed.charge, freed.latched, freed.frame⟩
  rw [chan]
  exact if_congr (by simp only [List.mem_filter, List.mem_finRange, true_and]) rfl rfl

end Emptied

/-! ## The flush purge (R125) -/

/-- Channel `c` is flush-on-detach and destined for side `x`. -/
def flushesTo (x : Side) (s : State) (c : ChanNo) : Bool := (s.chan c).flush && (s.chan c).source == peer x

/-- What the flush purge does at one channel. -/
def flushChan (x : Side) (s : State) (c : ChanNo) : State := if flushesTo x s c then purgeQueue c s else s

theorem peer_beq_comm (x y : Side) : (peer y == x) = (y == peer x) := by cases x <;> cases y <;> rfl

theorem flushPurge_eq (x : Side) (s : State) : flushPurge x s = (List.finRange 12).foldl (flushChan x) s := by
  simp only [flushPurge, chanDest, peer_beq_comm]
  rfl

/-- The purge of one channel leaves the others as they were, so each channel to be flushed at the start is flushed in its turn. -/
theorem flush_foldl_emptied {D : RecIdx → Prop} (l : List ChanNo) (s : State) (hs : TableInv D s) (hl : l.Nodup) :
    Emptied (l.filter (flushesTo x s)) s (l.foldl (flushChan x) s) := by
  induction l generalizing s with
  | nil => exact .nil s
  | cons d rest ih =>
    obtain ⟨hd, hrest⟩ := List.nodup_cons.1 hl
    rw [List.foldl_cons, flushChan]
    by_cases hf : flushesTo x s d = true
    · have first := Emptied.of_purgeQueue hs d
      have later := ih (purgeQueue d s) (hs.purged d).1 hrest
      have same : rest.filter (flushesTo x (purgeQueue d s)) = rest.filter (flushesTo x s) := List.filter_congr fun c hc => by
        have : c ∉ [d] := fun he => hd (List.mem_singleton.1 he ▸ hc)
        rw [flushesTo, flushesTo, first.chan_of_not_mem this]
      rw [if_pos hf, List.filter_cons_of_pos hf]
      exact first.trans hs (same ▸ later) (List.nodup_cons.2 ⟨mt List.mem_of_mem_filter hd, hrest.filter _⟩)
    · rw [if_neg hf, List.filter_cons_of_neg hf]
      exact ih s hs hrest

theorem flushPurge_spec {D : RecIdx → Prop} (hs : TableInv D s) (x : Side) :
    QueuesPurged (fun c => (s.chan c).flush && (s.chan c).source == peer x) s (flushPurge x s) := by
  rw [flushPurge_eq]
  exact (flush_foldl_emptied _ s hs (List.nodup_finRange 12)).queuesPurged

/-! ## The completion of a sweep (R126) -/

theorem sweepCompletion_due (hd : s.session.get x = .sweeping .done) :
    sweepCompletion x s =
      { flushPurge x s with
        session := s.session.set x .detached
        latched := (flushPurge x s).latched.set (peer x) (plus ((flushPurge x s).latched.get (peer x)) .peerGone) } := by
  simp only [sweepCompletion, hd, (flushPurge_tableOnly x s).session, latch]

theorem sweepCompletion_notDue (hn : s.session.get x ≠ .sweeping .done) : sweepCompletion x s = s := by
  unfold sweepCompletion
  split
  · next hd => exact absurd hd hn
  · rfl

/-- Settles O55: the flush purge by its rule, and the completion's two further fields. -/
theorem sweepCompletionDetachesTheSide : Obligations.SweepCompletionDetachesTheSide := fun s x =>
  ⟨fun hs hd => ⟨flushPurge x s, flushPurge_spec hs.table x, congrArg Host.Outcome.next (sweepCompletion_due hd)⟩,
    fun hn => congrArg Host.Outcome.next (sweepCompletion_notDue hn)⟩

end Sys2Proof.Machine
end

section
/-! Record data: what an accepted WRITE and READ do, CLOSE, and the aperture's reads and writes. -/

namespace Sys2Proof.Machine

variable {s : State} {i : RecIdx} {h : Held} {b : Buffer} {word : BitVec 10} {be : BitVec 4} {data : Word} {lo hi : Nat}

/-! ## WRITE and READ (R139, R140) -/

/-- A write into a HELD record, whole: its run of bytes, and its length (R137). -/
theorem writeRecord_held (hc : (s.entry i).custody = .held h) (o : Nat) (bytes : List Byte) :
    writeRecord i h.buf o bytes s =
      { s with
        store := writeRun s.store h.buf o bytes
        records := s.records.set i
          { gen := (s.entry i).gen,
            custody := .held { h with buf := { h.buf with length := max h.buf.length (o + bytes.length) } } } } :=
  mapBuf_held (s := { s with store := writeRun s.store h.buf o bytes }) hc _

/-- Settles O30: past the checks the effect is one write into the record, and the bytes it stores are a run. -/
theorem writeStoresItsBytes : Obligations.WriteStoresItsBytes := by
  intro v args s i h hp ha hat hx hpins hf hw hd o data len h1 hlen hcap
  have ⟨_, _, hc⟩ := hat.entered v (reqCode .write)
  have hk := (writeRequest_held (ha.entered v (reqCode .write)) h1 (hat.entered v _) hx).trans <|
    (demand_pos ⟨hpins, hf⟩).trans <| (demand_pos hlen).trans (demand_pos hcap)
  refine ⟨_, writeRun_runStored hw hd o data, (exec_accept hp hk).trans ?_⟩
  rw [writeRecord_held hc, entered_store, entered_records, entered_entry]

theorem getElem?_readRun (m : Memory) (b : Buffer) (o : Nat) {count k : Nat} (hk : k < count) :
    (readRun m b o count)[k]? = some (byteAt m b (o + k)) := by
  rw [readRun_eq, List.getElem?_map, List.getElem?_range hk, Option.map_some]

/-- Settles O31: past the checks the answer is the length and the run read, from the store as the port's entry left it. -/
theorem readReturnsTheBytes : Obligations.ReadReturnsTheBytes := by
  intro v args s i h hp ha hat hx hf o count h1 h256 hcap
  have hk := (readRequest_held (ha.entered v (reqCode .read)) ⟨h1, h256⟩ (hat.entered v _) hx).trans <|
    (demand_pos hf).trans (demand_pos hcap)
  rw [entered_store] at hk
  exact ⟨_, length_readRun .., fun k => getElem?_readRun s.store h.buf o, exec_accept hp hk⟩

/-! ## CLOSE (R145) -/

/-- Settles O33: steps 1 and 2 are CLOSE's only checks. -/
theorem closeUnbindsTheAperture : Obligations.CloseUnbindsTheAperture := by
  intro v args s hp hap
  have ses : (entered v (reqCode .closeAp) s).session.get .loc = s.session.loc := by rw [entered_session, Per.get]
  refine ⟨fun hv => exec_refuse hp (whenPermitted_closed (by rw [hv]; rfl)), fun hv hna => ⟨?_, ?_⟩, fun hv hses => ?_⟩
  · exact Option.eq_none_iff_forall_ne_some.2 fun i hi => hna (hap i hi).2.2
  · refine exec_refuse hp (whenPermitted_session (by rw [hv]; rfl) ?_)
    exact sessionCheck_notAttached Req.noConfusion Req.noConfusion (by rwa [hv, ses])
  · exact exec_accept hp (whenPermitted_of (by rw [hv]; rfl) (by rwa [hv, ses]))

/-! ## What the aperture reaches (R143) -/

theorem boundRecord_eq_some : boundRecord s = some (i, b) ↔ s.aperture = some i ∧ (s.entry i).custody.buf? = some b := by
  simp only [boundRecord, Option.bind_eq_some_iff, Option.map_eq_some_iff, Prod.mk.injEq]
  constructor
  · rintro ⟨_, hbind, _, hbuf, rfl, rfl⟩
    exact ⟨hbind, hbuf⟩
  · rintro ⟨hbind, hbuf⟩
    exact ⟨i, hbind, b, hbuf, rfl, rfl⟩

theorem boundRecord_unbound (hbind : s.aperture = none) : boundRecord s = none := by
  rw [boundRecord, hbind, Option.bind_none]

/-! ## An aperture read (R147) -/

theorem lane_apertureWord (m : Memory) (b : Buffer) (a : Nat) {k : Nat} (hk : k < 4) :
    lane (apertureWord m b a) k = byteAt m b (a + k) := by
  rw [← readByte_eq_byteAt, apertureWord, lane_ofLanes_getD _ _ _ _ k hk]
  match k, hk with
  | 0, _ | 1, _ | 2, _ | 3, _ => rfl

theorem apertureRead_below (hr : s.nRESET = true) (hb : boundRecord s = some (i, b)) (ha : 4 * word.toNat < b.capacity) :
    apertureRead word s = busDone (some (apertureWord s.store b (4 * word.toNat))) s := by
  simp only [apertureRead, if_pos hr, hb, if_pos ha]

theorem apertureRead_beyond (hr : s.nRESET = true) (hb : boundRecord s = some (i, b)) (ha : b.capacity ≤ 4 * word.toNat) :
    apertureRead word s = apertureFaulted (some 0) s := by
  simp only [apertureRead, if_pos hr, hb, if_neg (Nat.not_lt_of_le ha)]

theorem apertureRead_unbound (hr : s.nRESET = true) (hb : boundRecord s = none) :
    apertureRead word s = apertureFaulted (some 0) s := by
  simp only [apertureRead, if_pos hr, hb]

theorem apertureRead_inReset (hr : s.nRESET = false) : apertureRead word s = busDone (some 0) s := if_neg (by simp [hr])

/-- Settles O34: by nRESET, the binding and the capacity, each the read's own branch. -/
theorem apertureReadReturnsTheWord : Obligations.ApertureReadReturnsTheWord := by
  intro word be s a done faulted
  refine ⟨fun hr i b hbind hbuf => ?_, fun hr hbind => ?_, fun hr => congrArg Host.Outcome.next (apertureRead_inReset hr)⟩
  · have hb := boundRecord_eq_some.2 ⟨hbind, hbuf⟩
    refine ⟨fun ha => ⟨apertureWord s.store b a, fun k => lane_apertureWord s.store b a, ?_⟩, fun ha => ?_⟩
    · exact congrArg Host.Outcome.next (apertureRead_below hr hb ha)
    · exact congrArg Host.Outcome.next (apertureRead_beyond hr hb ha)
  · exact congrArg Host.Outcome.next (apertureRead_unbound hr (boundRecord_unbound hbind))

/-! ## An aperture write (R148) -/

/-- Contiguous enabled lanes are a run, by the table of the sixteen patterns. -/
theorem laneRun_of_lanesEnabled (hl : LanesEnabled be lo hi) : laneRun be = some (lo, hi + 1 - lo) := by
  obtain ⟨hle, hhi, hlanes⟩ := hl
  have table : ∀ (be : BitVec 4) (lo hi : Fin 4), lo ≤ hi → (∀ k < 4, be.getLsbD k = decide (lo.val ≤ k ∧ k ≤ hi.val)) →
      laneRun be = some (lo.val, hi.val + 1 - lo.val) := by decide
  exact table be ⟨lo, Nat.lt_of_le_of_lt hle hhi⟩ ⟨hi, hhi⟩ hle hlanes

/-- A run covers the enabled lanes, and no other, by the same table. -/
theorem lanesEnabled_of_laneRun {k n : Nat} (hrun : laneRun be = some (k, n)) : ∃ hi, hi + 1 = k + n ∧ LanesEnabled be k hi := by
  have table : ∀ be : BitVec 4, ∀ p ∈ laneRun be, p.1 < p.1 + p.2 ∧ p.1 + p.2 ≤ 4 ∧
      ∀ j < 4, be.getLsbD j = decide (p.1 ≤ j ∧ j < p.1 + p.2) := by decide
  obtain ⟨hpos, hle, hlanes⟩ := table be _ hrun
  refine ⟨k + n - 1, by omega, by omega, by omega, fun j hj => ?_⟩
  rw [hlanes j hj, decide_eq_decide]
  omega

theorem apertureStore_of_accepts (ha : ApertureAccepts word s i b lo hi be) :
    apertureStore word data be s = some (i, b, 4 * word.toNat + lo, laneBytes data lo (hi + 1 - lo)) := by
  obtain ⟨hbind, hbuf, hpins, hl, hlen, hcap⟩ := ha
  have ⟨hle, _, _⟩ := hl
  have met : b.pins = 0 ∧ 4 * word.toNat + lo ≤ b.length ∧ 4 * word.toNat + lo + (hi + 1 - lo) ≤ b.capacity :=
    ⟨hpins, hlen, by omega⟩
  simp only [apertureStore, boundRecord_eq_some.2 ⟨hbind, hbuf⟩, laneRun_of_lanesEnabled hl, if_pos met]

theorem accepts_of_apertureStore {o : Nat} {bytes : List Byte} (hst : apertureStore word data be s = some (i, b, o, bytes)) :
    ∃ lo hi, ApertureAccepts word s i b lo hi be := by
  unfold apertureStore at hst
  split at hst
  · next i' b' k n hb hrun =>
    obtain ⟨hbind, hbuf⟩ := boundRecord_eq_some.1 hb
    obtain ⟨hi, hn, hl⟩ := lanesEnabled_of_laneRun hrun
    obtain ⟨⟨hpins, hlen, hcap⟩, hsome⟩ := Option.ite_none_right_eq_some.1 hst
    cases hsome
    exact ⟨k, hi, hbind, hbuf, hpins, hl, hlen, by omega⟩
  · cases hst

/-- A write that fails a condition of R148 has nothing to store. -/
theorem apertureStore_eq_none (hn : ¬∃ i b lo hi, ApertureAccepts word s i b lo hi be) : apertureStore word data be s = none :=
  Option.eq_none_iff_forall_ne_some.2 fun ⟨i, b, _, _⟩ hst => hn ⟨i, b, accepts_of_apertureStore hst⟩

theorem apertureWrite_accepted (hr : s.nRESET = true) (ha : ApertureAccepts word s i b lo hi be) :
    apertureWrite word data be s =
      busDone none (writeRecord i b (4 * word.toNat + lo) (laneBytes data lo (hi + 1 - lo)) s) := by
  simp only [apertureWrite, if_pos hr, apertureStore_of_accepts ha]

theorem apertureWrite_dropped (hr : s.nRESET = true) (hn : ¬∃ i b lo hi, ApertureAccepts word s i b lo hi be) :
    apertureWrite word data be s = apertureFaulted none s := by
  simp only [apertureWrite, if_pos hr, apertureStore_eq_none hn]

theorem apertureWrite_inReset (hr : s.nRESET = false) : apertureWrite word data be s = busDone none s := if_neg (by simp [hr])

/-- Settles O35: an accepted write stores one run into its record, and any other comes to its bus answer. -/
theorem apertureWriteStoresOrIsDropped : Obligations.ApertureWriteStoresOrIsDropped := by
  refine ⟨fun word data be s i h lo hi hr hc ha hw hd => ?_, fun word data be s => ⟨fun hr hn => ?_, fun hr => ?_⟩⟩
  · have ⟨_, _, _, ⟨hle, _, _⟩, _, _⟩ := ha
    have last : 4 * word.toNat + lo + (laneBytes data lo (hi + 1 - lo)).length = 4 * word.toNat + hi + 1 := by
      rw [laneBytes, List.length_map, List.length_range]
      omega
    refine ⟨_, writeRun_runStored hw hd _ _, congrArg Host.Outcome.next ?_⟩
    rw [apertureWrite_accepted hr ha, writeRecord_held hc, last]
    rfl
  · exact congrArg Host.Outcome.next (apertureWrite_dropped hr hn)
  · exact congrArg Host.Outcome.next (apertureWrite_inReset hr)

end Sys2Proof.Machine
end

section
/-! What every step keeps, each on its own: the response slot's rules, the receiver under a reset line, and the event sets
(R153, R157, R166, R170, R176). -/

namespace Sys2Proof.Machine

variable {s t u : State} {x : Side}

/-! ## The three rules, kept together -/

theorem eventsInv_iff (s : State) :
    EventsInv s ↔ LatchedOk s.latched ∧ ∀ x : Side, s.session.get x ≠ .attached → s.enables.get x = 0 := by
  constructor
  · rintro ⟨fault, sets⟩
    exact ⟨⟨fault, fun x => (sets x).1⟩, fun x => (sets x).2⟩
  · rintro ⟨⟨fault, latched⟩, enables⟩
    exact ⟨fault, fun x => ⟨latched x, enables x⟩⟩

/-- Each of the three rules that holds in `s` holds in `t`. An update of fields that none of them names is `⟨id, id, id⟩`. -/
structure KeepsPortAndSets (s t : State) : Prop where
  port : PortInv s → PortInv t
  receiver : ReceiverInv s → ReceiverInv t
  events : EventsInv s → EventsInv t

namespace KeepsPortAndSets

theorem refl (s : State) : KeepsPortAndSets s s := ⟨id, id, id⟩

theorem trans (h : KeepsPortAndSets s t) (k : KeepsPortAndSets t u) : KeepsPortAndSets s u :=
  ⟨k.port ∘ h.port, k.receiver ∘ h.receiver, k.events ∘ h.events⟩

theorem foldl {α : Type} {f : State → α → State} (h : ∀ s a, KeepsPortAndSets s (f s a)) (l : List α) (s : State) :
    KeepsPortAndSets s (l.foldl f s) := by
  induction l generalizing s with
  | nil => exact refl s
  | cons a rest ih => exact (h s a).trans (ih (f s a))

/-- A table operation touches the latched sets alone of what the rules name. -/
theorem of_tableOnly (only : TableOnly s t) (latched : LatchedOk s.latched → LatchedOk t.latched) : KeepsPortAndSets s t where
  port h := h.of_tableOnly only
  receiver h := by
    unfold ReceiverInv
    rw [only.nRESET, only.nHRST, only.rx]
    exact h
  events h := by
    obtain ⟨ok, enables⟩ := (eventsInv_iff s).1 h
    rw [eventsInv_iff, only.session, only.enables]
    exact ⟨latched ok, enables⟩

/-- A change of the latched sets alone. -/
theorem with_latched {m : Per EventSet} (h : LatchedOk s.latched → LatchedOk m) : KeepsPortAndSets s { s with latched := m } :=
  of_tableOnly rfl h

/-- A change of the sessions and the enables alone. -/
theorem with_session {session : Per Session} {enables : Per EventSet}
    (h : (∀ y, s.session.get y ≠ .attached → s.enables.get y = 0) → ∀ y, session.get y ≠ .attached → enables.get y = 0) :
    KeepsPortAndSets s { s with session := session, enables := enables } where
  port := id
  receiver := id
  events hs := by
    obtain ⟨ok, clear⟩ := (eventsInv_iff s).1 hs
    exact (eventsInv_iff _).2 ⟨ok, h clear⟩

end KeepsPortAndSets

/-! ## The table's operations -/

theorem latch_keepsPortAndSets {e : Event} (hl : mayLatch x e = true) (s : State) : KeepsPortAndSets s (latch x e s) :=
  .with_latched fun h => h.latch hl

theorem setChan_keepsPortAndSets (s : State) (c : ChanNo) (ch : Channel) : KeepsPortAndSets s (s.setChan c ch) := ⟨id, id, id⟩

theorem takeSegs_keepsPortAndSets (n : Nat) (s : State) : KeepsPortAndSets s (takeSegs n s) :=
  .of_tableOnly (takeSegs_tableOnly n s) fun h => h.takeSegs n

theorem giveSegs_keepsPortAndSets (segs : List SegNo) (s : State) : KeepsPortAndSets s (giveSegs segs s) :=
  .of_tableOnly (giveSegs_tableOnly segs s) fun h => h.giveSegs segs

theorem removeJobs_keepsPortAndSets (p : Job → Bool) (s : State) : KeepsPortAndSets s (removeJobs p s) := by
  rw [removeJobs_eq]
  exact ⟨id, id, id⟩

theorem dropCloneJob_keepsPortAndSets (i : RecIdx) (f : Bool) (s : State) : KeepsPortAndSets s (dropCloneJob i f s) := by
  rw [dropCloneJob_eq]
  exact ⟨id, id, id⟩

theorem unbindFrom_keepsPortAndSets (i : RecIdx) (s : State) : KeepsPortAndSets s (unbindFrom i s) := by
  rw [unbindFrom_eq]
  exact ⟨id, id, id⟩

theorem releaseOrigin_keepsPortAndSets (o : Option ChanNo) (s : State) : KeepsPortAndSets s (releaseOrigin o s) := by
  rw [releaseOrigin_eq]
  exact ⟨id, id, id⟩

theorem freeEntry_keepsPortAndSets (i : RecIdx) (x : Side) (segs : List SegNo) (s : State) :
    KeepsPortAndSets s (freeEntry i x segs s) :=
  .of_tableOnly (freeEntry_tableOnly i x segs s) fun h => LatchedOk.giveSegs (s := subCharge x segs.length s) h segs

theorem retirePath_keepsPortAndSets (i : RecIdx) (s : State) : KeepsPortAndSets s (retirePath i s) := by
  unfold retirePath
  split
  · exact .refl s
  · exact (((dropCloneJob_keepsPortAndSets _ _ s).trans (unbindFrom_keepsPortAndSets i _)).trans
      (releaseOrigin_keepsPortAndSets _ _)).trans (freeEntry_keepsPortAndSets _ _ _ _)
  · exact ((dropCloneJob_keepsPortAndSets _ _ s).trans (unbindFrom_keepsPortAndSets i _)).trans (freeEntry_keepsPortAndSets _ _ _ _)

theorem purgeOne_keepsPortAndSets (c : ChanNo) (s : State) (i : RecIdx) : KeepsPortAndSets s (purgeOne c s i) :=
  (setChan_keepsPortAndSets s c _).trans (retirePath_keepsPortAndSets i _)

theorem purgeQueue_keepsPortAndSets (c : ChanNo) (s : State) : KeepsPortAndSets s (purgeQueue c s) :=
  .foldl (purgeOne_keepsPortAndSets c) _ s

theorem flushPurge_keepsPortAndSets (x : Side) (s : State) : KeepsPortAndSets s (flushPurge x s) :=
  .foldl (fun t c => by split; exacts [purgeQueue_keepsPortAndSets c t, .refl t]) _ s

theorem placeOn_keepsPortAndSets (i : RecIdx) (h : Held) (c : ChanNo) (reply : Option ChanNo) (s : State) :
    KeepsPortAndSets s (placeOn i h c reply s) :=
  ((unbindFrom_keepsPortAndSets i s).trans (releaseOrigin_keepsPortAndSets h.origin _)).trans ⟨id, id, id⟩

theorem takeRecord_keepsPortAndSets (i : RecIdx) (x : Side) (n len : Nat) (tag : Half) (f : Bool) (s : State) :
    KeepsPortAndSets s (takeRecord i x n len tag f s) :=
  .of_tableOnly (takeRecord_tableOnly i x n len tag f s) fun h =>
    LatchedOk.takeSegs (s := { s with freeRecs := s.freeRecs.tail }) h n

theorem makeClone_keepsPortAndSets (x : Side) (i c : RecIdx) (b : Buffer) (s : State) :
    KeepsPortAndSets s (makeClone x i c b s) :=
  (takeRecord_keepsPortAndSets c x (cloneSegs b.length) b.length b.tag true s).trans ⟨id, id, id⟩

theorem abortCopies_keepsPortAndSets (i : RecIdx) (s : State) : KeepsPortAndSets s (abortCopies i s) :=
  (removeJobs_keepsPortAndSets _ s).trans (.foldl (fun t (j : Job) => retirePath_keepsPortAndSets j.clone t) _ _)

/-- An expiry latches at the holder: LEASE_LOST, and COPY_ABORTED where a copy was cut short (R89). -/
theorem expire_keepsPortAndSets (i : RecIdx) (h : Held) (c : ChanNo) (s : State) : KeepsPortAndSets s (expire i h c s) := by
  have unbound := (abortCopies_keepsPortAndSets i s).trans (unbindFrom_keepsPortAndSets i _)
  have moved : KeepsPortAndSets s (moveCharge h.holder ((unbindFrom i (abortCopies i s)).chan c).source h.buf.segs.length
      (requeue i c h.buf (unbindFrom i (abortCopies i s)))) := unbound.trans ⟨id, id, id⟩
  unfold expire
  dsimp only
  refine .trans ?_ (latch_keepsPortAndSets (e := .leaseLost) (by cases h.holder <;> rfl) _)
  split
  · exact moved.trans (latch_keepsPortAndSets (e := .copyAborted) (by cases h.holder <;> rfl) _)
  · exact moved

theorem leaseExpiry_keepsPortAndSets (i : RecIdx) (s : State) : KeepsPortAndSets s (leaseExpiry i s) := by
  unfold leaseExpiry
  split
  · split
    · split
      · split
        · exact ⟨id, id, id⟩
        · exact expire_keepsPortAndSets _ _ _ s
      · exact .refl s
    · exact .refl s
  · exact .refl s

theorem copyCompletion_keepsPortAndSets (s : State) : KeepsPortAndSets s (copyCompletion s) := by
  unfold copyCompletion
  split
  · exact .refl s
  · next j _ _ =>
    split
    · refine .trans ?_ (latch_keepsPortAndSets (e := .copyDone) (by cases j.side <;> rfl) _)
      exact ⟨id, id, id⟩
    · exact .refl s

/-! ## Sessions (R115, R121, R126, R157) -/

/-- A change of a side's session that clears its enables. -/
theorem session_cleared_keepsPortAndSets (x : Side) (ses : Session) (s : State) :
    KeepsPortAndSets s { s with session := s.session.set x ses, enables := s.enables.set x 0 } :=
  .with_session fun clear y hy => by
    rw [Per.get_set] at hy ⊢
    split
    · rfl
    · next hyx => exact clear y (by rwa [if_neg hyx] at hy)

/-- A side that is not ATTACHED has its enables clear already (R157), so its session may change by itself. -/
theorem session_moved_keepsPortAndSets (hx : s.session.get x ≠ .attached) (ses : Session) :
    KeepsPortAndSets s { s with session := s.session.set x ses } :=
  .with_session fun clear y hy => by
    by_cases hyx : y = x
    · exact clear y (hyx ▸ hx)
    · exact clear y (by rwa [Per.get_set, if_neg hyx] at hy)

theorem attachSide_keepsPortAndSets (x : Side) (s : State) : KeepsPortAndSets s (attachSide x s) :=
  ((session_cleared_keepsPortAndSets x .attached s).trans (.with_latched fun h => h.set_zero x)).trans
    (latch_keepsPortAndSets (e := .peerUp) (by cases x <;> rfl) _)

theorem startSweep_keepsPortAndSets (x : Side) (s : State) : KeepsPortAndSets s (startSweep x s) := by
  have started := (session_cleared_keepsPortAndSets x (.sweeping (.next 0)) s).trans
    (removeJobs_keepsPortAndSets (fun j => j.side == x) _)
  unfold startSweep
  cases x with
  | host => exact started
  | loc => exact started.trans ⟨id, id, id⟩

theorem sweepRecord_keepsPortAndSets (x : Side) (i : RecIdx) (s : State) : KeepsPortAndSets s (sweepRecord x i s) := by
  unfold sweepRecord
  split
  · split
    · exact retirePath_keepsPortAndSets i s
    · exact .refl s
  · exact .refl s

theorem sweepStep_keepsPortAndSets (x : Side) (s : State) : KeepsPortAndSets s (sweepStep x s) := by
  unfold sweepStep
  split
  · next i hi =>
    refine (sweepRecord_keepsPortAndSets x i s).trans (session_moved_keepsPortAndSets ?_ _)
    rw [(sweepRecord_tableOnly x i s).session, hi]
    exact Session.noConfusion
  · exact .refl s

theorem sweepCompletion_keepsPortAndSets (x : Side) (s : State) : KeepsPortAndSets s (sweepCompletion x s) := by
  unfold sweepCompletion
  split
  · next hd =>
    refine ((flushPurge_keepsPortAndSets x s).trans (session_moved_keepsPortAndSets ?_ .detached)).trans
      (latch_keepsPortAndSets (e := .peerGone) (by cases x <;> rfl) _)
    rw [(flushPurge_tableOnly x s).session, hd]
    exact Session.noConfusion
  · exact .refl s

/-! ## The requests -/

/-- What the effect of an accepted request of side `x` keeps: the three rules, but the slot's own may wait for HOST's answer, which fills
the slot. -/
structure EffectKeeps (x : Side) (s u : State) : Prop where
  port : x = .loc → PortInv s → PortInv u
  receiver : ReceiverInv s → ReceiverInv u
  events : EventsInv s → EventsInv u

theorem KeepsPortAndSets.effect (h : KeepsPortAndSets s u) : EffectKeeps x s u := ⟨fun _ => h.port, h.receiver, h.events⟩

section
variable (x : Side) (args : List Byte) (s : State)

theorem attachRequest_keepsPortAndSets : (attachRequest x args s).Yields (KeepsPortAndSets s) := by
  refine .permitted (.accept ?_)
  split
  · exact attachSide_keepsPortAndSets x s
  · exact .refl s

theorem lookupRequest_keepsPortAndSets : (lookupRequest x args s).Yields (KeepsPortAndSets s) := by
  refine .permitted (.current fun i c => ?_)
  cases c with
  | free => exact .refuse _
  | held h => exact .accept (.refl s)
  | queued q => exact .accept (.refl s)

theorem ackRequest_keepsPortAndSets : (ackRequest x args s).Yields (KeepsPortAndSets s) :=
  .permitted (.demand (.accept (.with_latched fun h => h.set_and x _)))

/-- EVMASK sets the enables of a side that is ATTACHED, as step 2 has found (R14, R161). -/
theorem evmaskRequest_keepsPortAndSets : (evmaskRequest x args s).Yields (KeepsPortAndSets s) := fun result u e => by
  obtain ⟨-, hx, e⟩ := permitted_accept (by simp) e
  obtain ⟨-, e⟩ := demand_accept.1 e
  cases e
  refine .with_session fun clear y hy => ?_
  have hyx : y ≠ x := fun he => hy (he ▸ hx)
  rw [Per.get_set, if_neg hyx]
  exact clear y hy

/-- LINKCFG alone sets a field of the port, and HOST alone may issue it (R13, R179). -/
theorem linkcfgRequest_effectKeeps : (linkcfgRequest x args s).Yields (EffectKeeps x s) := fun result u e => by
  obtain ⟨hopen, -, e⟩ := whenPermitted_accept.1 e
  obtain ⟨m, -, e⟩ := demandSome_accept.1 e
  cases e
  have hhost : x = .host := by simpa [reqOpenTo] using hopen
  exact ⟨fun hloc => absurd (hhost.symm.trans hloc) Side.noConfusion, id, id⟩

/-- Every request but LINKCFG keeps the three rules by its effect alone. -/
theorem handlerOf_keepsPortAndSets (r : Req) (hr : r ≠ .linkcfg) : (handlerOf r x args s).Yields (KeepsPortAndSets s) := by
  cases r
  all_goals dsimp only [handlerOf]
  case linkcfg => exact absurd rfl hr
  case attach => exact attachRequest_keepsPortAndSets x args s
  case detach => exact .permitted (.accept (startSweep_keepsPortAndSets x s))
  case evict => exact .permitted (.demand (.accept (startSweep_keepsPortAndSets .host s)))
  case alloc => exact .permitted (.demand (.resources fun i => .accept (takeRecord_keepsPortAndSets i x _ _ _ _ s)))
  case retire => exact .permitted (.held fun i _ => .demand (.accept (retirePath_keepsPortAndSets i s)))
  case settag => exact .permitted (.held fun _ _ => .accept ⟨id, id, id⟩)
  case lookup => exact lookupRequest_keepsPortAndSets x args s
  case setlen => exact .permitted (.demand (.held fun _ _ => .demand (.demand (.accept ⟨id, id, id⟩))))
  case write => exact .permitted (.demand (.held fun _ _ => .demand (.demand (.demand (.accept ⟨id, id, id⟩)))))
  case read => exact .permitted (.demand (.held fun _ _ => .demand (.demand (.accept (.refl s)))))
  case clone =>
    exact .permitted (.held fun i h => .demand (.demand (.resources fun c => .accept (makeClone_keepsPortAndSets x i c h.buf s))))
  case renew => exact .permitted (.held fun _ _ => .demandSome fun _ => .accept ⟨id, id, id⟩)
  case post =>
    exact .permitted (.demandSome fun c => .demandSome fun reply => .held fun i h => .demand
      (.room (.accept (placeOn_keepsPortAndSets i h c reply s))))
  case ret =>
    exact .permitted (.held fun i h => .demand (.demandSome fun c => .room (.accept (placeOn_keepsPortAndSets i h c none s))))
  case claim => exact .permitted (.demandSome fun _ => .demand (.demandSome fun _ => .claim fun _ => ⟨id, id, id⟩))
  case claimtag => exact .permitted (.demandSome fun _ => .demand (.demandSome fun _ => .claim fun _ => ⟨id, id, id⟩))
  case claimany => exact .permitted (.demandSome fun _ => .demandSome fun _ => .claim fun _ => ⟨id, id, id⟩)
  case tally => exact .permitted (.demandSome fun _ => .demand (.accept ⟨id, id, id⟩))
  case chaninfo => exact .permitted (.demandSome fun _ => .accept (.refl s))
  case chancfg =>
    exact .permitted (.demandSome fun _ => .demandSome fun _ => .demand (.demandSome fun _ => .demand (.accept ⟨id, id, id⟩)))
  case chanon => exact .permitted (.demandSome fun _ => .demand (.accept ⟨id, id, id⟩))
  case chanoff => exact .permitted (.demandSome fun _ => .demand (.accept ⟨id, id, id⟩))
  case purge => exact .permitted (.demandSome fun c => .accept (purgeQueue_keepsPortAndSets c s))
  case poolinfo => exact .permitted (.accept (.refl s))
  case quota => exact .permitted (.demandSome fun _ => .demand (.accept ⟨id, id, id⟩))
  case watermark => exact .permitted (.demand (.accept ⟨id, id, id⟩))
  case events => exact .permitted (.accept (.refl s))
  case ack => exact ackRequest_keepsPortAndSets x args s
  case evmask => exact evmaskRequest_keepsPortAndSets x args s
  case openRec => exact .permitted (.held fun _ _ => .demand (.accept ⟨id, id, id⟩))
  case closeAp => exact .permitted (.accept ⟨id, id, id⟩)

theorem handlerOf_effectKeeps (r : Req) : (handlerOf r x args s).Yields (EffectKeeps x s) := by
  by_cases hr : r = .linkcfg
  · subst hr
    exact linkcfgRequest_effectKeeps x args s
  · exact fun result u e => (handlerOf_keepsPortAndSets x args s r hr result u e).effect

theorem handlerOfCode_effectKeeps (code : Byte) : (handlerOfCode code x args s).Yields (EffectKeeps x s) := by
  unfold handlerOfCode
  cases reqOfCode code with
  | none => exact .refuse _
  | some r => exact handlerOf_effectKeeps x args s r

end

/-! ## Taking a request -/

/-- A frame that ends is not in progress, and OVERRUN rises over a READY slot alone (R166, R171). -/
theorem entered_keepsPortAndSets (v : Via) (code : Byte) (s : State) : KeepsPortAndSets s (entered v code s) where
  port h := by
    unfold PortInv at h ⊢
    rw [entered_slot, entered_checkMode]
    rcases entered_overrun v code s with ho | ⟨a, ha⟩
    · rwa [ho]
    · rw [ha]
      exact ⟨fun _ => ⟨a, rfl⟩, fun he => absurd he Slot.noConfusion⟩
  receiver h := by
    unfold ReceiverInv at h ⊢
    rw [entered_nRESET, entered_nHRST]
    intro low b
    rcases entered_rx v code s with hrx | hrx
    · rw [hrx]
      exact h low b
    · rw [hrx]
      exact Receiver.noConfusion
  events h := by
    unfold EventsInv at h ⊢
    rwa [entered_latched, entered_session, entered_enables]

/-- HOST's answer fills the slot, whatever it held (R174); LOCAL's touches the window's registers alone (R187). -/
theorem answered_keepsPortAndSets {v : Via} (h : EffectKeeps v.side s u) (code : Byte) (st : Status) (result : List Byte) :
    KeepsPortAndSets s (answered v code st result u) := by
  cases v with
  | host bits => exact ⟨fun _ => ⟨fun _ => ⟨_, rfl⟩, fun he => absurd he Slot.noConfusion⟩, h.receiver, h.events⟩
  | loc upper lanes => exact ⟨h.port rfl, h.receiver, h.events⟩

theorem takeRequest_keepsPortAndSets {code : Byte} {h : Handler} (hh : ∀ x args s, (h x args s).Yields (EffectKeeps x s))
    (v : Via) (s : State) : KeepsPortAndSets s (takeRequest code h v s) := by
  have entry := entered_keepsPortAndSets v code s
  rcases takeRequest_cases code h v s with he | ⟨st, he⟩ | ⟨args, result, u, -, ha, he⟩
  · rw [he]
    exact entry
  · rw [he]
    exact entry.trans (answered_keepsPortAndSets (KeepsPortAndSets.refl _).effect code st [])
  · rw [he]
    exact entry.trans (answered_keepsPortAndSets (hh v.side args _ result u ha) code .ok result)

theorem takeReq_keepsPortAndSets (r : Req) (v : Via) (s : State) :
    KeepsPortAndSets s (takeRequest (reqCode r) (handlerOf r) v s) :=
  takeRequest_keepsPortAndSets (fun x args s => handlerOf_effectKeeps x args s r) v s

theorem takeCode_keepsPortAndSets (code : Byte) (v : Via) (s : State) :
    KeepsPortAndSets s (takeRequest code (handlerOfCode code) v s) :=
  takeRequest_keepsPortAndSets (fun x args s => handlerOfCode_effectKeeps x args s code) v s

/-! ## Frames -/

theorem closeFrame_keepsPortAndSets (edges : Nat) (bytes : List Byte) (s : State) :
    KeepsPortAndSets s (closeFrame edges bytes s) := by
  rw [closeFrame_eq]
  exact ⟨id, fun _ _ _ => Receiver.noConfusion, id⟩

/-- A FETCH leaves a slot that is not EMPTY with OVERRUN clear, and an EMPTY one as it was (R170, R176). -/
theorem PortInv.fetched (h : PortInv s) : PortInv { s with slot := slotFetched s.slot, overrun := overrunFetched s } := by
  obtain ⟨-, empty⟩ := h
  unfold PortInv
  dsimp only
  cases hslot : s.slot with
  | empty =>
    obtain ⟨hcheck, hover⟩ := empty hslot
    have clear : overrunFetched s = false := by simp only [overrunFetched, hslot, hover]
    exact ⟨fun ho => absurd (clear.symm.trans ho) Bool.noConfusion, fun _ => ⟨hcheck, clear⟩⟩
  | ready a | fetched a =>
    have clear : overrunFetched s = false := by simp only [overrunFetched, hslot]
    exact ⟨fun ho => absurd (clear.symm.trans ho) Bool.noConfusion, fun he => absurd he Slot.noConfusion⟩

theorem fetchFrame_keepsPortAndSets (bits : List Bool) (s : State) : KeepsPortAndSets s (fetchFrame bits s) := by
  have closed := closeFrame_keepsPortAndSets (8 + bits.length) (fetchBytes s) s
  unfold fetchFrame
  dsimp only
  split
  · rw [closeFrame_eq] at closed ⊢
    exact ⟨PortInv.fetched, closed.receiver, id⟩
  · exact closed

theorem anyFrame_keepsPortAndSets (bits : List Bool) (s : State) : KeepsPortAndSets s (anyFrame bits s) := by
  unfold anyFrame
  split
  · exact closeFrame_keepsPortAndSets _ _ s
  · split
    · exact fetchFrame_keepsPortAndSets _ s
    · exact takeCode_keepsPortAndSets _ _ s

/-- A frame that begins is collected only with both reset lines high (R166). -/
theorem frameBegins_keepsPortAndSets (s : State) : KeepsPortAndSets s (frameBegins s) := by
  unfold frameBegins
  split
  · next hidle =>
    refine ⟨id, fun _ low b (hb : rxNow s = .collecting b) => ?_, id⟩
    have low : s.nRESET = false ∨ s.nHRST = false := low
    have ignored : rxNow s = .ignoring := by
      unfold rxNow
      rw [hidle]
      rcases low with h | h <;> simp [h]
    exact absurd (ignored.symm.trans hb) Receiver.noConfusion
  · exact .refl s

theorem exec_unknownRequestCode_keepsPortAndSets (code : Byte) (v : Via) (s : State) :
    ∃ t, exec (.unknownRequestCode code v) s = .next t ∧ KeepsPortAndSets s t := by
  cases v with
  | host bits =>
    refine ⟨_, rfl, ?_⟩
    split
    · exact fetchFrame_keepsPortAndSets bits s
    · exact takeCode_keepsPortAndSets code _ s
  | loc upper lanes => exact ⟨_, rfl, takeCode_keepsPortAndSets code _ s⟩

/-! ## The local bus -/

/-- APERTURE_FAULT is LOCAL's to latch (R149, R153). -/
theorem apertureFaulted_keepsPortAndSets (d : Option Word) (s : State) : KeepsPortAndSets s (apertureFaulted d s) :=
  (latch_keepsPortAndSets (x := .loc) (e := .apertureFault) rfl s).trans ⟨id, id, id⟩

theorem apertureRead_keepsPortAndSets (word : BitVec 10) (s : State) : KeepsPortAndSets s (apertureRead word s) := by
  unfold apertureRead
  dsimp only
  split
  · split
    · split
      · exact ⟨id, id, id⟩
      · exact apertureFaulted_keepsPortAndSets _ s
    · exact apertureFaulted_keepsPortAndSets _ s
  · exact ⟨id, id, id⟩

theorem apertureWrite_keepsPortAndSets (word : BitVec 10) (data : Word) (be : BitVec 4) (s : State) :
    KeepsPortAndSets s (apertureWrite word data be s) := by
  unfold apertureWrite
  split
  · split
    · exact ⟨id, id, id⟩
    · exact apertureFaulted_keepsPortAndSets _ s
  · exact ⟨id, id, id⟩

theorem argWrite_keepsPortAndSets (n : Fin 4) (data : Word) (be : BitVec 4) (s : State) :
    KeepsPortAndSets s (argWrite n data be s) := by
  unfold argWrite
  split <;> exact ⟨id, id, id⟩

theorem registerRead_keepsPortAndSets (word : Nat) (s : State) : KeepsPortAndSets s (registerRead word s) := by
  unfold registerRead
  split <;> exact ⟨id, id, id⟩

theorem registerWrite_keepsPortAndSets (a : BusAccess) (s : State) : KeepsPortAndSets s (registerWrite a s) := by
  unfold registerWrite
  split
  · exact argWrite_keepsPortAndSets _ _ _ s
  · split
    · exact takeCode_keepsPortAndSets _ _ s
    · exact ⟨id, id, id⟩
  · exact ⟨id, id, id⟩

theorem busAccess_keepsPortAndSets (a : BusAccess) (s : State) : KeepsPortAndSets s (busAccess a s) := by
  unfold busAccess
  split
  · split
    · exact apertureWrite_keepsPortAndSets _ _ _ s
    · exact apertureRead_keepsPortAndSets _ s
  · split
    · split
      · exact registerWrite_keepsPortAndSets a s
      · exact registerRead_keepsPortAndSets _ s
    · exact ⟨id, id, id⟩

/-! ## The reset lines -/

/-- Once a reset line has fallen no frame is being collected, and so its level may be as it will. -/
theorem KeepsPortAndSets.with_lines (h : KeepsPortAndSets s u) (hrx : ∀ b, u.rx ≠ .collecting b) (nRESET nHRST : Bool) :
    KeepsPortAndSets s { u with nRESET := nRESET, nHRST := nHRST } :=
  ⟨h.port, fun _ _ => hrx, h.events⟩

theorem deviceResetFalls_rx (bits : List Bool) (held : Option HeldWrite) (s : State) (b : Byte) :
    (deviceResetFalls bits held s).rx ≠ .collecting b := by
  have hrx : (deviceResetFalls bits held s).rx = abandonFrame bits s := by unfold deviceResetFalls; rfl
  rw [hrx]
  exact abandonFrame_ne_collecting bits s b

theorem deviceResetFalls_keepsPortAndSets (bits : List Bool) (held : Option HeldWrite) (s : State) :
    KeepsPortAndSets s (deviceResetFalls bits held s) := by
  refine ⟨fun _ => ?_, fun _ _ => deviceResetFalls_rx bits held s, fun _ => ?_⟩
  · exact inv_reset.port
  · exact inv_reset.events

theorem portReset_keepsPortAndSets (bits : List Bool) (s : State) : KeepsPortAndSets s (portReset bits s) :=
  ⟨fun _ => ⟨fun h => absurd h Bool.noConfusion, fun _ => ⟨rfl, rfl⟩⟩, fun _ _ => abandonFrame_ne_collecting bits s, id⟩

theorem hostLinkReset_keepsPortAndSets (bits : List Bool) (s : State) : KeepsPortAndSets s (hostLinkReset bits s) := by
  have port := portReset_keepsPortAndSets bits s
  unfold hostLinkReset
  dsimp only
  split
  · exact port.trans (startSweep_keepsPortAndSets .host _)
  · exact port

theorem hostLinkReset_rx (bits : List Bool) (s : State) (b : Byte) : (hostLinkReset bits s).rx ≠ .collecting b := by
  have hrx : (hostLinkReset bits s).rx = abandonFrame bits s := by
    unfold hostLinkReset
    dsimp only
    split
    · exact (startSweep_tableOnly .host _).rx
    · rfl
  rw [hrx]
  exact abandonFrame_ne_collecting bits s b

theorem completeWrite_keepsPortAndSets (held : Option HeldWrite) (s : State) : KeepsPortAndSets s (completeWrite held s) := by
  cases held with
  | none => exact .refl s
  | some w => exact takeCode_keepsPortAndSets w.code _ s

theorem with_freeCount_keepsPortAndSets (n : Nat) (s : State) : KeepsPortAndSets s { s with freeCount := n } := ⟨id, id, id⟩

theorem exec_deviceReset_keepsPortAndSets (p : DeviceFall) (s : State) :
    ∃ t, exec (.deviceReset p) s = .next t ∧ KeepsPortAndSets s t := by
  obtain ⟨t, ht, rfl | rfl | ⟨n, rfl | rfl⟩⟩ := exec_deviceReset_cases p s
  · exact ⟨_, ht, .refl _⟩
  · exact ⟨_, ht, deviceResetFalls_keepsPortAndSets p.bits p.held s⟩
  · exact ⟨_, ht, ((with_freeCount_keepsPortAndSets n s).trans (deviceResetFalls_keepsPortAndSets p.bits p.held _)).with_lines
      (deviceResetFalls_rx p.bits p.held _) true _⟩
  · exact ⟨_, ht, (with_freeCount_keepsPortAndSets n s).trans (completeWrite_keepsPortAndSets p.held _)⟩

theorem exec_hostLinkReset_keepsPortAndSets (p : LinkFall) (s : State) :
    ∃ t, exec (.hostLinkReset p) s = .next t ∧ KeepsPortAndSets s t := by
  obtain ⟨t, ht, rfl | rfl | ⟨n, rfl | rfl⟩⟩ := exec_hostLinkReset_cases p s
  · exact ⟨_, ht, .refl _⟩
  · exact ⟨_, ht, (hostLinkReset_keepsPortAndSets p.bits s).with_lines (hostLinkReset_rx p.bits s) _ false⟩
  · exact ⟨_, ht, (with_freeCount_keepsPortAndSets n s).trans (hostLinkReset_keepsPortAndSets p.bits _)⟩
  · exact ⟨_, ht, with_freeCount_keepsPortAndSets n s⟩

/-- A line that rises leaves fewer lines low. -/
theorem nRESET_rises_keepsPortAndSets (s : State) : KeepsPortAndSets s { s with nRESET := true } :=
  ⟨id, fun h low => h (Or.inr (low.resolve_left Bool.noConfusion)), id⟩

theorem nHRST_rises_keepsPortAndSets (s : State) : KeepsPortAndSets s { s with nHRST := true } :=
  ⟨id, fun h low => h (Or.inl (low.resolve_right Bool.noConfusion)), id⟩

/-! ## Ticks and copies -/

theorem tclkCycle_keepsPortAndSets (s : State) : KeepsPortAndSets s (tclkCycle s) := by
  unfold tclkCycle
  split <;> exact ⟨id, id, id⟩

theorem leaseTick_keepsPortAndSets (s : State) : KeepsPortAndSets s (leaseTick s) := by
  unfold leaseTick
  split
  · split <;> exact ⟨id, id, id⟩
  · exact .refl s

theorem copyStep_keepsPortAndSets (s : State) : KeepsPortAndSets s (copyStep s) := by
  unfold copyStep
  split
  · exact .refl s
  · split
    · split <;> exact ⟨id, id, id⟩
    · exact .refl s

/-! ## The step -/

/-- Every command keeps each of the three rules. -/
theorem exec_keepsPortAndSets (c : Instr) (s : State) : ∃ t, exec c s = .next t ∧ KeepsPortAndSets s t := by
  cases c with
  | fetch bits => exact ⟨_, rfl, fetchFrame_keepsPortAndSets bits s⟩
  | requestFrameDiscard bits => exact ⟨_, rfl, anyFrame_keepsPortAndSets bits s⟩
  | argWrite n data be => exact ⟨_, rfl, argWrite_keepsPortAndSets n data be s⟩
  | busError a => exact ⟨_, rfl, busAccess_keepsPortAndSets a s⟩
  | apertureRead word be => exact ⟨_, rfl, apertureRead_keepsPortAndSets word s⟩
  | apertureWrite word data be => exact ⟨_, rfl, apertureWrite_keepsPortAndSets word data be s⟩
  | deviceReset p => exact exec_deviceReset_keepsPortAndSets p s
  | hostLinkReset p => exact exec_hostLinkReset_keepsPortAndSets p s
  | leaseTick => exact ⟨_, rfl, leaseTick_keepsPortAndSets s⟩
  | leaseExpiry i => exact ⟨_, rfl, leaseExpiry_keepsPortAndSets i s⟩
  | copyStep => exact ⟨_, rfl, copyStep_keepsPortAndSets s⟩
  | copyCompletion => exact ⟨_, rfl, copyCompletion_keepsPortAndSets s⟩
  | sweepStep x => exact ⟨_, rfl, sweepStep_keepsPortAndSets x s⟩
  | sweepCompletion x => exact ⟨_, rfl, sweepCompletion_keepsPortAndSets x s⟩
  | tclkCycle => exact ⟨_, rfl, tclkCycle_keepsPortAndSets s⟩
  | nresetRises => exact ⟨_, rfl, nRESET_rises_keepsPortAndSets s⟩
  | nhrstReturningHigh => exact ⟨_, rfl, nHRST_rises_keepsPortAndSets s⟩
  | frameBegins => exact ⟨_, rfl, frameBegins_keepsPortAndSets s⟩
  | unknownRequestCode code v => exact exec_unknownRequestCode_keepsPortAndSets code v s
  -- The 32 requests of the table.
  | _ => exact ⟨_, rfl, takeReq_keepsPortAndSets _ _ s⟩

theorem step_keepsPortAndSets (h : step s = .next t) : KeepsPortAndSets s t := by
  obtain ⟨front, idle⟩ := stepRunsTheFrontCommand
  cases hp : s.pending with
  | nil =>
    rw [idle s hp] at h
    cases h
    exact .refl s
  | cons c rest =>
    obtain ⟨u, hu, keeps⟩ := exec_keepsPortAndSets c { s with pending := rest }
    rw [front c rest s hp, hu] at h
    cases h
    exact ⟨keeps.port, keeps.receiver, keeps.events⟩

/-- Settles O7: each of the three rules is kept by itself, whatever the other two. -/
theorem stepKeepsThePortAndTheEventSets : Obligations.StepKeepsThePortAndTheEventSets :=
  ⟨fun _ _ hp hr ht => ⟨(step_keepsPortAndSets ht).port hp, (step_keepsPortAndSets ht).receiver hr⟩,
    fun _ _ he ht => (step_keepsPortAndSets ht).events he⟩

end Sys2Proof.Machine
end

section
/-! The event sets' two requests: ACK removes pending events, EVMASK replaces the enables (R160, R161). -/

namespace Sys2Proof.Machine

variable {x : Side} {s : State} {args : List Byte}

/-- In range a mask argument's set is the argument's low ten bits (R197). -/
theorem getLsbD_setOfMask (m : Half) {n : Nat} (hn : n < 10) : (setOfMask m).getLsbD n = m.getLsbD n := by
  rw [setOfMask, BitVec.getLsbD_setWidth, decide_eq_true hn, Bool.true_and]

/-- The events left by an ACK: those pending that its mask does not name (R160). -/
theorem getLsbD_acked (pending : EventSet) (m : Half) {n : Nat} (hn : n < 10) :
    (pending &&& ~~~setOfMask m).getLsbD n = (pending.getLsbD n && !m.getLsbD n) := by
  rw [BitVec.getLsbD_and, BitVec.getLsbD_not, getLsbD_setOfMask m hn, decide_eq_true hn, Bool.true_and]

theorem ackRequest_inRange (ha : Admitted .ack x s) (hm : (argHalf args 0).extractLsb' 10 6 = 0) :
    ackRequest x args s = .accept (setBytes (s.latched.get x &&& ~~~setOfMask (argHalf args 0)))
      { s with latched := s.latched.set x (s.latched.get x &&& ~~~setOfMask (argHalf args 0)) } :=
  (whenPermitted_of ha.1 ha.2).trans (demand_pos ((maskInRange_iff _).2 hm))

/-- The line an EVMASK answers with is the one it leaves (R161). -/
theorem evmaskRequest_inRange (ha : Admitted .evmask x s) (hm : (argHalf args 0).extractLsb' 10 6 = 0) {u : State}
    (hu : u = { s with enables := s.enables.set x (setOfMask (argHalf args 0)) }) :
    evmaskRequest x args s = .accept [flagByte (u.line x)] u := by
  subst hu
  exact (whenPermitted_of ha.1 ha.2).trans (demand_pos ((maskInRange_iff _).2 hm))

/-- Settles O51: in range each request writes one set of its side, out of range step 3 refuses it. -/
theorem ackAndEvmaskActOnOneSet : Obligations.AckAndEvmaskActOnOneSet := by
  refine ⟨fun v args s hp ha => ⟨fun hm => ?_, exec_outOfRange hp ha⟩, fun v args s hp ha => ⟨fun hm => ?_, exec_outOfRange hp ha⟩⟩
  · refine ⟨_, fun n => getLsbD_acked (s.latched.get v.side) (argHalf args 0), ?_⟩
    refine (exec_accept hp (ackRequest_inRange (ha.entered v _) hm)).trans ?_
    rw [entered_latched]
    rfl
  · refine ⟨_, fun n => getLsbD_setOfMask (argHalf args 0), ?_⟩
    refine exec_accept hp (evmaskRequest_inRange (ha.entered v _) hm ?_)
    rw [entered_enables]

end Sys2Proof.Machine
end

section
/-! Frames at the Host Link Port: the bytes of a run of bits, what a frame's end leaves, and the frames that are discarded, not taken, or
FETCH frames. -/

namespace Sys2Proof.Machine

variable {s : State} {bits : List Bool} {status : Byte}

/-! ## The bytes of a run of bits (R165, R166) -/

/-- A byte is the byte of its bits. -/
theorem byteOfBits_bits (b : Byte) :
    byteOfBits (b.getLsbD 7) (b.getLsbD 6) (b.getLsbD 5) (b.getLsbD 4) (b.getLsbD 3) (b.getLsbD 2) (b.getLsbD 1) (b.getLsbD 0) = b := by
  have sum := Nat.ofBits_testBit b.toNat 8
  rw [Nat.mod_eq_of_lt b.isLt] at sum
  simp [Nat.ofBits, Fin.foldr_succ, -Nat.testBit_zero] at sum
  apply BitVec.eq_of_toNat_eq
  simp only [byteOfBits, BitVec.toNat_ofNat, BitVec.getLsbD]
  have := b.isLt
  omega

theorem wholeBytes_byteBits_append (b : Byte) (rest : List Bool) : wholeBytes (byteBits b ++ rest) = b :: wholeBytes rest := by
  simp only [byteBits, List.cons_append, List.nil_append, wholeBytes, byteOfBits_bits]

/-- Fewer than eight bits hold no whole byte, eight or more hold one. -/
theorem wholeBytes_eq_nil_iff (bits : List Bool) : wholeBytes bits = [] ↔ bits.length < 8 := by
  unfold wholeBytes
  split
  · simp only [List.length_cons, reduceCtorEq, false_iff]
    omega
  · next few =>
    refine ⟨fun _ => ?_, fun _ => rfl⟩
    match bits, few with
    | [], _ | [_], _ | [_, _], _ | [_, _, _], _ | [_, _, _, _], _ | [_, _, _, _, _], _ | [_, _, _, _, _, _], _
    | [_, _, _, _, _, _, _], _ => simp
    | b7 :: b6 :: b5 :: b4 :: b3 :: b2 :: b1 :: b0 :: rest, few => exact absurd rfl (few b7 b6 b5 b4 b3 b2 b1 b0 rest)

/-- Bytes sent bit by bit arrive as they were, the bits of an incomplete last byte dropped. -/
theorem wholeBytes_sent (bytes : List Byte) {tail : List Bool} (ht : tail.length < 8) :
    wholeBytes (bytes.flatMap byteBits ++ tail) = bytes := by
  induction bytes with
  | nil => exact (wholeBytes_eq_nil_iff tail).2 ht
  | cons b rest ih => rw [List.flatMap_cons, List.append_assoc, wholeBytes_byteBits_append, ih]

/-! ## The end of a frame (R166, R169) -/

theorem frameTaken_of_collecting (h : rxNow s = .collecting status) : frameTaken s = true := by
  rw [frameTaken, h]

theorem closeFrame_collecting (h : rxNow s = .collecting status) (edges : Nat) (bytes : List Byte) :
    closeFrame edges bytes s = { s with rx := .idle, shifted := some (shiftOut edges (status :: bytes)) } := by
  rw [closeFrame, h]

/-! ## A request frame over a READY slot (R171) -/

/-- The request frame that ends now is discarded: the status byte and zeros were shifted out over `edges` edges, and OVERRUN is set. -/
def discarded (edges : Nat) (status : Byte) (s : State) : State :=
  { s with rx := .idle, shifted := some (shiftOut edges [status]), overrun := true }

theorem takeRequest_overReady {a : List Byte} (hrx : rxNow s = .collecting status) (hslot : s.slot = .ready a) (code : Byte)
    (h : Handler) : takeRequest code h (.host bits) s = discarded (8 + bits.length) status s := by
  have ht := frameTaken_of_collecting hrx
  have dropped : present (.host bits) code s = .dropped := by simp only [present, ht, hslot, if_true]
  rw [takeRequest_dropped dropped]
  simp only [entered, ht, hslot, if_true, closeFrame_collecting hrx, discarded]

/-- A frame with a whole byte that is no FETCH frame is the request frame of its first byte (R167). -/
theorem anyFrame_request (hf : notFetchFrame bits = true) (hlen : 8 ≤ bits.length) :
    ∃ code, anyFrame bits s = takeRequest code (handlerOfCode code) (.host (bits.drop 8)) s := by
  unfold anyFrame
  cases hw : wholeBytes bits with
  | nil => exact absurd ((wholeBytes_eq_nil_iff bits).1 hw) (Nat.not_lt_of_le hlen)
  | cons code rest =>
    have hne : code ≠ fetchCode := by simpa [notFetchFrame, hw] using hf
    exact ⟨code, if_neg hne⟩

/-- Settles O12: whatever its code, the frame's request is dropped at the port, and the entry sets OVERRUN. -/
theorem readySlotDiscardsFrames : Obligations.ReadySlotDiscardsFrames := by
  intro bits s st a hrx hslot
  refine ⟨fun r => ?_, fun code hc => ?_, fun hf hlen => ?_⟩
  · rw [exec_request, takeRequest_overReady hrx hslot, discarded]
  · rw [exec_unknownCode hc, takeRequest_overReady hrx hslot, discarded]
  · obtain ⟨code, hcode⟩ := anyFrame_request (s := s) hf hlen
    have edges : 8 + (bits.drop 8).length = bits.length := by
      rw [List.length_drop]
      omega
    rw [exec, execRequestFrameDiscard, hcode, takeRequest_overReady hrx hslot, edges, discarded]

/-! ## Frames that are not taken (R166, R168, R180) -/

/-- The frame that ends now is not taken, and HMISO carried `carried` through it: nothing through a frame that began under a reset line. -/
def UntakenCarrying (carried : Option (List Bool)) (s : State) : Prop :=
  rxNow s = .ignoring ∧ carried = none ∨ ∃ sent, rxNow s = .abandoned sent ∧ carried = some sent

section
variable {carried : Option (List Bool)} (h : UntakenCarrying carried s)
include h

theorem UntakenCarrying.frameTaken_eq : frameTaken s = false :=
  frameTaken_eq_false.2 (h.imp And.left fun ⟨sent, hrx, _⟩ => ⟨sent, hrx⟩)

theorem UntakenCarrying.closeFrame_eq (edges : Nat) (bytes : List Byte) :
    closeFrame edges bytes s = { s with rx := .idle, shifted := carried } := by
  rcases h with ⟨hrx, rfl⟩ | ⟨sent, hrx, rfl⟩ <;> rw [closeFrame, hrx]

theorem UntakenCarrying.takeRequest_eq (code : Byte) (f : Handler) (bits : List Bool) :
    takeRequest code f (.host bits) s = { s with rx := .idle, shifted := carried } := by
  have dropped : present (.host bits) code s = .dropped := by
    simp only [present, h.frameTaken_eq, Bool.false_eq_true, if_false]
  rw [takeRequest_dropped dropped]
  simp only [entered, h.frameTaken_eq, Bool.false_eq_true, if_false, h.closeFrame_eq]

theorem UntakenCarrying.fetchFrame_eq (bits : List Bool) : fetchFrame bits s = { s with rx := .idle, shifted := carried } := by
  simp only [fetchFrame, h.frameTaken_eq, Bool.false_eq_true, if_false, h.closeFrame_eq]

theorem UntakenCarrying.anyFrame_eq (bits : List Bool) : anyFrame bits s = { s with rx := .idle, shifted := carried } := by
  unfold anyFrame
  split
  · exact h.closeFrame_eq _ _
  · split
    · exact h.fetchFrame_eq _
    · exact h.takeRequest_eq _ _ _

end

/-- A frame of no whole byte is no request: it only ends. -/
theorem anyFrame_short (hlen : bits.length < 8) : anyFrame bits s = closeFrame bits.length [] s := by
  rw [anyFrame, (wholeBytes_eq_nil_iff bits).2 hlen]

/-- Settles O13: untaken, every kind of frame comes to its end alone, and so does a taken frame of no whole byte. -/
theorem untakenFramesChangeNothing : Obligations.UntakenFramesChangeNothing := by
  refine ⟨fun s => ?_, fun bits s carried hrx => ?_, fun bits s st hrx hlen => ?_⟩
  · rw [FrameTaken, Bool.not_eq_true, frameTaken_eq_false]
  · have h : UntakenCarrying carried s := hrx
    refine ⟨fun r => ?_, fun code => ?_, ?_, ?_⟩
    · rw [exec_request, h.takeRequest_eq]
    · rw [exec, execUnknownRequestCode, h.fetchFrame_eq, h.takeRequest_eq, ite_self]
    · rw [exec, execFetch, h.fetchFrame_eq]
    · rw [exec, execRequestFrameDiscard, h.anyFrame_eq]
  · rw [exec, execRequestFrameDiscard, anyFrame_short hlen, closeFrame_collecting hrx]

/-! ## FETCH frames (R170, R175, R176) -/

theorem fetchFrame_collecting (hrx : rxNow s = .collecting status) (bits : List Bool) :
    fetchFrame bits s =
      { s with rx := .idle, shifted := some (shiftOut (8 + bits.length) (status :: fetchBytes s)),
               slot := slotFetched s.slot, overrun := overrunFetched s } := by
  simp only [fetchFrame, frameTaken_of_collecting hrx, if_true, closeFrame_collecting hrx]

/-- What a FETCH finds where the slot holds an answer, and what it leaves there (R175). -/
theorem fetch_holding {a : List Byte} (h : s.slot = .ready a ∨ s.slot = .fetched a) :
    fetchBytes s = (a ++ if s.checkMode = true then [crc8 a] else []) ∧ slotFetched s.slot = .fetched a ∧
      overrunFetched s = false := by
  have answer : (if s.checkMode = true then a ++ [crc8 a] else a) = a ++ if s.checkMode = true then [crc8 a] else [] := by
    split
    · rfl
    · rw [List.append_nil]
  rcases h with h | h <;> simp only [fetchBytes, slotFetched, overrunFetched, h, answer, and_self]

/-- A FETCH finds NONE in an EMPTY slot, and leaves slot and OVERRUN as they are (R176). -/
theorem fetch_empty (h : s.slot = .empty) :
    fetchBytes s = [0xFF] ∧ slotFetched s.slot = s.slot ∧ overrunFetched s = s.overrun := by
  simp only [fetchBytes, slotFetched, overrunFetched, h, statusByte, and_self]

/-- Settles O14: the frame's end by what the slot holds. -/
theorem fetchShiftsTheAnswer : Obligations.FetchShiftsTheAnswer := by
  refine ⟨fun bits s st a hrx hslot => ?_, fun bits s st hport hrx hslot => ?_⟩
  · obtain ⟨hbytes, hfetched, hover⟩ := fetch_holding hslot
    rw [exec, execFetch, fetchFrame_collecting hrx, hbytes, hfetched, hover, List.cons_append]
  · obtain ⟨hcheck, hover⟩ := hport.2 hslot
    obtain ⟨hbytes, hfetched, hsame⟩ := fetch_empty hslot
    exact ⟨hcheck, hover, by rw [exec, execFetch, fetchFrame_collecting hrx, hbytes, hfetched, hsame]⟩

end Sys2Proof.Machine
end

section
/-! The link status byte, and the fall of nHCS that takes it (R168, R199). -/

namespace Sys2Proof.Machine

variable {s : State}

/-- The fields of a byte laid out as the link status byte, each read back from its place (R199). -/
theorem statusLayout_fields (slot ses : Fin 3) (overrun line check : Bool) :
    let st := BitVec.ofNat 8 (64 * slot + 32 * overrun.toNat + 8 * ses + 4 * line.toNat + 2 * check.toNat)
    st.extractLsb' 6 2 = BitVec.ofNat 2 slot ∧ st.getLsbD 5 = overrun ∧ st.extractLsb' 3 2 = BitVec.ofNat 2 ses ∧
      st.getLsbD 2 = line ∧ st.getLsbD 1 = check ∧ st.getLsbD 0 = false := by
  revert slot ses overrun line check
  decide

theorem slotCode_lt (slot : Slot) : slotCode slot < 3 := by cases slot <;> simp [slotCode]

theorem sessionCode_lt (ses : Session) : sessionCode ses < 3 := by cases ses <;> simp [sessionCode]

/-- The fields of the link status byte (R199). -/
theorem linkStatus_fields (s : State) :
    (linkStatus s).extractLsb' 6 2 = BitVec.ofNat 2 (slotCode s.slot) ∧ (linkStatus s).getLsbD 5 = s.overrun ∧
      (linkStatus s).extractLsb' 3 2 = BitVec.ofNat 2 (sessionCode s.session.host) ∧ (linkStatus s).getLsbD 2 = s.line .host ∧
      (linkStatus s).getLsbD 1 = s.checkMode ∧ (linkStatus s).getLsbD 0 = false :=
  statusLayout_fields ⟨_, slotCode_lt s.slot⟩ ⟨_, sessionCode_lt s.session.host⟩ s.overrun (s.line .host) s.checkMode

theorem rxNow_linesHigh (hrx : s.rx = .idle) (h1 : s.nRESET = true) (h2 : s.nHRST = true) :
    rxNow s = .collecting (linkStatus s) := by
  simp only [rxNow, hrx, h1, h2, Bool.and_self, if_true]

theorem rxNow_lineLow (hrx : s.rx = .idle) (hlow : s.nRESET = false ∨ s.nHRST = false) : rxNow s = .ignoring := by
  have low : (s.nRESET && s.nHRST) = false := by rwa [Bool.and_eq_false_iff]
  simp only [rxNow, hrx, low, Bool.false_eq_true, if_false]

theorem frameBegins_idle (hrx : s.rx = .idle) : frameBegins s = { s with rx := rxNow s } := by
  rw [frameBegins, hrx]

theorem frameBegins_busy (hrx : s.rx ≠ .idle) : frameBegins s = s := by
  unfold frameBegins
  split
  · next hidle => exact absurd hidle hrx
  · rfl

/-- Settles O15: the status byte taken is the link status byte of the state at the fall, and its layout gives each field. -/
theorem frameBeginsTakesTheStatus : Obligations.FrameBeginsTakesTheStatus := by
  refine ⟨fun s hrx => ⟨fun h1 h2 => ?_, fun hlow => ?_⟩, fun s hrx => ?_⟩
  · obtain ⟨slot, overrun, ses, line, check, low⟩ := linkStatus_fields s
    refine ⟨linkStatus s, ?_, fun h => ?_, fun a h => ?_, fun a h => ?_, overrun, fun h => ?_, fun h => ?_, fun p h => ?_, line,
      check, low⟩
    · rw [exec, execFrameBegins, frameBegins_idle hrx, rxNow_linesHigh hrx h1 h2]
    · rw [slot, h]; rfl
    · rw [slot, h]; rfl
    · rw [slot, h]; rfl
    · rw [ses, h]; rfl
    · rw [ses, h]; rfl
    · rw [ses, h]; rfl
  · rw [exec, execFrameBegins, frameBegins_idle hrx, rxNow_lineLow hrx hlow]
  · rw [exec, execFrameBegins, frameBegins_busy hrx]

end Sys2Proof.Machine
end

section
/-! What the Host Link Port makes of a request frame that it examines: its own checks P1 to P4 (R172), and the argument bytes carried
inward. -/

namespace Sys2Proof.Machine

variable {s : State} {r : Req} {bits : List Bool} {body : List Byte} {mode : Bool} {code : Byte} {st : Status}

/-! ## The codes (R195) -/

theorem reqOfCode_reqCode (r : Req) : reqOfCode (reqCode r) = some r := by cases r <;> decide

theorem checkNeeded_reqCode (mode : Bool) (r : Req) : checkNeeded mode (reqCode r) = true ↔ mode = true ∨ r = .linkcfg := by
  have code : reqCode r = reqCode .linkcfg ↔ r = .linkcfg :=
    ⟨fun h => Option.some.inj (by rw [← reqOfCode_reqCode r, h, reqOfCode_reqCode]), congrArg reqCode⟩
  rw [checkNeeded, Bool.or_eq_true, beq_iff_eq, code]

/-- LINKCFG's code is known, so a frame of an unknown code has a check byte in check mode alone. -/
theorem checkNeeded_unknown (hc : reqOfCode code = none) (mode : Bool) : checkNeeded mode code = mode := by
  have hne : (code == reqCode .linkcfg) = false := beq_false_of_ne fun h => by
    rw [h, reqOfCode_reqCode] at hc
    cases hc
  rw [checkNeeded, hne, Bool.or_false]

/-! ## P1 to P4 (R172) -/

/-- P1 and P2 pass: where a check byte is required there is a last byte, and it is the check byte of the bytes before it. -/
def CheckPasses (mode : Bool) (code : Byte) (body : List Byte) : Prop :=
  checkNeeded mode code = true → body ≠ [] ∧ body.getLast? = some (crc8 (code :: body.dropLast))

theorem portCheck_noCheckByte (hn : checkNeeded mode code = true) : portCheck mode code [] = some .frameShort := by
  simp only [portCheck, hn, List.isEmpty_nil, Bool.and_self, if_true]

theorem portCheck_badCheck (hn : checkNeeded mode code = true) (hne : body ≠ [])
    (hbad : ¬body.getLast? = some (crc8 (code :: body.dropLast))) : portCheck mode code body = some .badCheck := by
  have full : body.isEmpty = false := List.isEmpty_eq_false_iff.2 hne
  simp only [portCheck, hn, full, Bool.and_false, Bool.false_eq_true, if_false, Bool.true_and, bne_iff_ne.2 hbad, if_true]

/-- Past P1 and P2 the port looks at the code: P3 is for the requests HOST may issue, P4 for WRITE. -/
theorem portCheck_eq (h : CheckPasses mode code body) :
    portCheck mode code body = (reqOfCode code).bind fun r =>
      if reqOpenTo .host r = true ∧ (frameArgs mode code body).length < reqArgLen r then some .frameShort
      else if r = .write ∧ 256 < (frameArgs mode code body).length - reqArgLen .write then some .range
      else none := by
  have p1 : (checkNeeded mode code && body.isEmpty) = false := by
    cases hn : checkNeeded mode code with
    | false => rfl
    | true => rw [Bool.true_and, List.isEmpty_eq_false_iff.2 (h hn).1]
  have p2 : (checkNeeded mode code && body.getLast? != some (crc8 (code :: body.dropLast))) = false := by
    cases hn : checkNeeded mode code with
    | false => rfl
    | true => rw [Bool.true_and, (h hn).2, bne_self_eq_false]
  simp only [portCheck, p1, p2, Bool.false_eq_true, if_false]
  cases reqOfCode code with
  | none => rfl
  | some r => simp only [Option.bind_some, Bool.and_eq_true, decide_eq_true_eq, beq_iff_eq]

/-- Past P1 and P2 an unknown code is carried inward. -/
theorem portCheck_unknown (h : CheckPasses mode code body) (hc : reqOfCode code = none) : portCheck mode code body = none := by
  rw [portCheck_eq h, hc, Option.bind_none]

section
variable (h : CheckPasses mode (reqCode r) body)
include h

theorem portCheck_short (ho : reqOpenTo .host r = true) (hlen : (frameArgs mode (reqCode r) body).length < reqArgLen r) :
    portCheck mode (reqCode r) body = some .frameShort := by
  rw [portCheck_eq h, reqOfCode_reqCode, Option.bind_some, if_pos ⟨ho, hlen⟩]

theorem portCheck_longWrite (hr : r = .write) (hlen : 260 < (frameArgs mode (reqCode r) body).length) :
    portCheck mode (reqCode r) body = some .range := by
  subst hr
  rw [portCheck_eq h, reqOfCode_reqCode, Option.bind_some, if_neg, if_pos]
  · exact ⟨rfl, by simp only [reqArgLen]; omega⟩
  · rintro ⟨-, hshort⟩
    simp only [reqArgLen] at hshort
    omega

/-- Every frame of a request HOST may not issue passes P3 and P4. -/
theorem portCheck_closed (ho : reqOpenTo .host r = false) : portCheck mode (reqCode r) body = none := by
  rw [portCheck_eq h, reqOfCode_reqCode, Option.bind_some, if_neg, if_neg]
  · rintro ⟨rfl, -⟩
    cases ho
  · rintro ⟨hopen, -⟩
    exact absurd (ho.symm.trans hopen) Bool.noConfusion

/-- All four checks pass: enough argument bytes, and no more than WRITE's 256 data bytes after its fixed arguments. -/
theorem portCheck_passes (hlen : reqArgLen r ≤ (frameArgs mode (reqCode r) body).length)
    (hw : r = .write → (frameArgs mode (reqCode r) body).length ≤ 260) : portCheck mode (reqCode r) body = none := by
  rw [portCheck_eq h, reqOfCode_reqCode, Option.bind_some, if_neg, if_neg]
  · rintro ⟨rfl, hlong⟩
    have := hw rfl
    simp only [reqArgLen] at hlong
    omega
  · exact fun hshort => absurd hlen (Nat.not_le_of_lt hshort.2)

end

/-! ## The frame at the port -/

section
variable (ht : FrameTaken s) (hslot : ∀ a, s.slot ≠ .ready a)
include ht hslot

/-- A frame that is taken over a slot that is not READY is answered by the port's own checks or carried inward. -/
theorem present_examined (code : Byte) (bits : List Bool) :
    present (.host bits) code s =
      (portCheck s.checkMode code (wholeBytes bits)).elim (.carried (frameArgs s.checkMode code (wholeBytes bits))) .turned := by
  cases hs : s.slot with
  | ready a => exact absurd hs (hslot a)
  | empty | fetched a =>
    simp only [present, ht, hs, if_true]
    cases portCheck s.checkMode code (wholeBytes bits) <;> rfl

theorem present_turned (hp : portCheck s.checkMode code (wholeBytes bits) = some st) : present (.host bits) code s = .turned st := by
  rw [present_examined ht hslot, hp, Option.elim_some]

theorem present_carried (hp : portCheck s.checkMode code (wholeBytes bits) = none) :
    present (.host bits) code s = .carried (frameArgs s.checkMode code (wholeBytes bits)) := by
  rw [present_examined ht hslot, hp, Option.elim_none]

/-- A frame of a request that fails a check of the port is answered by the port. -/
theorem exec_turned (hp : portCheck s.checkMode (reqCode r) (wholeBytes bits) = some st) :
    exec (requestInstr r (.host bits)) s = .next (refusedWith r (.host bits) st s) := by
  rw [exec_request, takeRequest_turned (present_turned ht hslot hp)]

theorem exec_unknownCode_turned (hc : unknownCode code (.host bits) = true)
    (hp : portCheck s.checkMode code (wholeBytes bits) = some st) :
    exec (.unknownRequestCode code (.host bits)) s = .next (answered (.host bits) code st [] (entered (.host bits) code s)) := by
  rw [exec_unknownCode hc, takeRequest_turned (present_turned ht hslot hp)]

end

theorem length_frameArgs (mode : Bool) (r : Req) (body : List Byte) :
    (frameArgs mode (reqCode r) body).length = if mode = true ∨ r = .linkcfg then body.length - 1 else body.length := by
  simp only [frameArgs, checkNeeded_reqCode]
  split
  · rw [List.length_dropLast]
  · rfl

theorem reqOfCode_of_unknownCode (hc : unknownCode code (.host bits) = true) : reqOfCode code = none := by
  simp only [unknownCode, Bool.and_eq_true, Option.isNone_iff_eq_none] at hc
  exact hc.1

/-- Settles O11: each check as the port makes it, and step 1 for what it carries inward. -/
theorem portAnswersItsOwnChecks : Obligations.PortAnswersItsOwnChecks := by
  obtain ⟨closed, unknown, -, closed_iff⟩ := unpermittedCodesAreBadRequest
  refine ⟨fun r bits s ht hslot => ?_, fun code bits s ht hslot hc => ?_⟩
  · have needed := checkNeeded_reqCode s.checkMode r
    refine ⟨fun hn he => ?_, fun hn hne hbad => ?_, fun hpass => ?_⟩
    · exact exec_turned ht hslot (he ▸ portCheck_noCheckByte (needed.2 hn))
    · exact exec_turned ht hslot (portCheck_badCheck (needed.2 hn) hne hbad)
    · have pass : CheckPasses s.checkMode (reqCode r) (wholeBytes bits) := fun hn => hpass (needed.1 hn)
      have length := length_frameArgs s.checkMode r (wholeBytes bits)
      refine ⟨fun ho hlen => ?_, fun hr hlen => ?_, fun ho => ?_⟩
      · exact exec_turned ht hslot (portCheck_short pass ho (length ▸ hlen))
      · exact exec_turned ht hslot (portCheck_longWrite pass hr (length ▸ hlen))
      · exact closed r _ _ s (present_carried ht hslot (portCheck_closed pass ho)) ((closed_iff r .host).1 ho)
  · have hnone := reqOfCode_of_unknownCode hc
    have needed := checkNeeded_unknown hnone s.checkMode
    refine ⟨fun hn he => ?_, fun hn hne hbad => ?_, fun hpass => ?_⟩
    · exact exec_unknownCode_turned ht hslot hc (he ▸ portCheck_noCheckByte (needed.trans hn))
    · exact exec_unknownCode_turned ht hslot hc (portCheck_badCheck (needed.trans hn) hne hbad)
    · have pass : CheckPasses s.checkMode code (wholeBytes bits) := fun hn => hpass (needed.symm.trans hn)
      exact unknown code _ _ s (present_carried ht hslot (portCheck_unknown pass hnone)) hc

/-! ## A whole frame (R165, R173, R178) -/

/-- The check byte a frame carries after its argument bytes, where one is required (R178). -/
def checkBytes (mode : Bool) (code : Byte) (args : List Byte) : List Byte :=
  if checkNeeded mode code = true then [crc8 (code :: args)] else []

theorem frameArgs_sent (mode : Bool) (code : Byte) (args : List Byte) :
    frameArgs mode code (args ++ checkBytes mode code args) = args := by
  cases hn : checkNeeded mode code with
  | true => simp only [frameArgs, checkBytes, hn, if_true, List.dropLast_concat]
  | false => simp only [frameArgs, checkBytes, hn, Bool.false_eq_true, if_false, List.append_nil]

/-- A frame with its check byte passes P1 and P2. -/
theorem checkPasses_sent (mode : Bool) (code : Byte) (args : List Byte) :
    CheckPasses mode code (args ++ checkBytes mode code args) := by
  intro hn
  simp only [checkBytes, hn, if_true, List.dropLast_concat, List.getLast?_concat, ne_eq, List.append_eq_nil_iff,
    List.cons_ne_nil, and_false, not_false_eq_true, and_self]

/-- Settles O9: the bytes arrive as sent, the check byte passes P1 and P2, and the argument bytes pass P3 and P4. -/
theorem hostFrameReachesItsRequest : Obligations.HostFrameReachesItsRequest := by
  intro r args tail s ht hslot ho hlen hw htail check
  have hcheck : check = checkBytes s.checkMode (reqCode r) args := by
    simp only [check, checkBytes, checkNeeded_reqCode]
  have arrived := wholeBytes_sent (args ++ check) htail
  have sent := frameArgs_sent s.checkMode (reqCode r) args
  have pass := checkPasses_sent s.checkMode (reqCode r) args
  rw [← hcheck, ← arrived] at sent pass
  have passes := portCheck_passes pass (by rwa [sent]) (by rwa [sent])
  exact (present_carried ht hslot passes).trans (congrArg Presented.carried sent)

/-! ## LINKCFG (R179) -/

theorem linkcfgRequest_inRange {args : List Byte} {m : Bool} (hm : arg8 args 0 = if m then 1 else 0) :
    linkcfgRequest .host args s = .accept [if m then 1 else 0] { s with checkMode := m } := by
  have flag : flagOfByte (arg8 args 0) = some m := by
    rw [hm]
    cases m <;> rfl
  rw [linkcfgRequest, whenPermitted_pass rfl rfl, flag, demandSome_some, flagByte_eq]

/-- Settles O56: step 2 passes in every session state, and step 3 is LINKCFG's only other check. -/
theorem linkcfgSetsCheckMode : Obligations.LinkcfgSetsCheckMode := by
  intro v args s hp hv
  refine ⟨fun m hm => exec_accept hp ?_, fun h0 h1 => exec_refuse hp ?_⟩
  · rw [hv]
    exact linkcfgRequest_inRange hm
  · rw [hv]
    exact handlerOf_range rfl (Or.inr rfl) (sideArg_outOfRange ⟨h0, h1⟩)

end Sys2Proof.Machine
end

section
/-! Where an answer stands at each port (R174, R187, R194). -/

namespace Sys2Proof.Machine

/-- Lane `k` of RES`n` holds result byte 4n + k, zero where the layout has none (R187, R194). -/
theorem lane_resWord (result : List Byte) (n k : Nat) (hk : k < 4) :
    lane (resWord result n) k = (result[4 * n + k]?).getD 0 := by
  rw [resWord, lane_ofLanes_getD _ _ _ _ k hk, ← List.getD_eq_getElem?_getD]
  match k, hk with
  | 0, _ | 1, _ | 2, _ | 3, _ => rfl

/-- The result registers of a LOCAL answer, by number. -/
theorem getElem_resWords (result : List Byte) (n : Fin 4) :
    (#v[resWord result 0, resWord result 1, resWord result 2, resWord result 3])[n] = resWord result n := by
  match n with
  | 0 | 1 | 2 | 3 => rfl

/-- Settles O17: by the lanes of the words that the answer writes. -/
theorem answersStandInTheirPlaces : Obligations.AnswersStandInTheirPlaces := by
  intro code st result s
  refine ⟨fun bits => rfl, fun upper lanes => ⟨_, _, rfl, ?_⟩⟩
  obtain ⟨l0, l1, l2, l3⟩ := lane_ofLanes (statusByte st) code 0 0
  refine ⟨l0, l1, l2, l3, fun n k hk => ?_⟩
  rw [getElem_resWords, lane_resWord result n k hk]

end Sys2Proof.Machine
end

section
/-! The Local Window: what a REQ write presents, and which bus accesses LERR ends (R186, R190, R193). -/

namespace Sys2Proof.Machine

variable {s : State}

/-! ## A REQ write (R186, R194) -/

theorem present_loc {upper : BitVec 24} {lanes : BitVec 3} {code : Byte} (hr : s.nRESET = true) :
    present (.loc upper lanes) code s = .carried (argBytes s) := if_pos hr

theorem length_argBytes (s : State) : (argBytes s).length = 16 := by simp [argBytes]

/-- Argument byte 4n + k stands in lane `k` of ARG`n` (R194). -/
theorem getElem?_argBytes (s : State) (n : Fin 4) {k : Nat} (hk : k < 4) : (argBytes s)[4 * n.val + k]? = some (lane s.args[n] k) := by
  have hword : (4 * n.val + k) / 4 = n.val := by omega
  have hlane : (4 * n.val + k) % 4 = k := by omega
  have hlt : 4 * n.val + k < 16 := by omega
  simp [argBytes, hlt, hword, hlane]

/-- Settles O10: outside reset the port presents every REQ write with the bytes of ARG0 to ARG3. -/
theorem localWriteReachesItsRequest : Obligations.LocalWriteReachesItsRequest := fun _ _ _ s hr =>
  ⟨argBytes s, present_loc hr, length_argBytes s, fun n _ hk => getElem?_argBytes s n hk⟩

/-- While nRESET is low a REQ write completes with LERR, and its request is not taken (R193). -/
theorem takeRequest_locInReset (code : Byte) (h : Handler) (upper : BitVec 24) (lanes : BitVec 3) (hr : s.nRESET = false) :
    takeRequest code h (.loc upper lanes) s = { s with bus := some { lerr := true, data := none } } := by
  have dropped : present (.loc upper lanes) code s = .dropped := if_neg (by simp [hr])
  rw [takeRequest_dropped dropped]
  exact if_neg (by simp [hr])

/-! ## No request touches the bus's answer -/

section
variable (x : Side) (args : List Byte) (s : State)

theorem startSweep_bus : (startSweep x s).bus = s.bus := (startSweep_tableOnly x s).bus

theorem attachRequest_bus : (attachRequest x args s).Yields fun u => u.bus = s.bus := by
  refine .permitted (.accept ?_)
  split <;> rfl

theorem lookupRequest_bus : (lookupRequest x args s).Yields fun u => u.bus = s.bus := fun result u e => by
  obtain ⟨rfl, -⟩ := lookupRequest_accept e
  rfl

/-- How a bus access completes is the port's to say: no request's effect changes it. The requests are grouped by the checks they share. -/
theorem handlerOf_bus (r : Req) : (handlerOf r x args s).Yields fun u => u.bus = s.bus := by
  cases r
  all_goals dsimp only [handlerOf]
  case attach => exact attachRequest_bus x args s
  case lookup => exact lookupRequest_bus x args s
  case detach => exact .permitted (.accept (startSweep_bus x s))
  case evict => exact .permitted (.demand (.accept (startSweep_bus .host s)))
  case poolinfo | events | closeAp => exact .permitted (.accept rfl)
  case watermark | ack | evmask => exact .permitted (.demand (.accept rfl))
  case chaninfo | linkcfg => exact .permitted (.demandSome fun _ => .accept rfl)
  case tally | chanon | chanoff | quota => exact .permitted (.demandSome fun _ => .demand (.accept rfl))
  case chancfg => exact .permitted (.demandSome fun _ => .demandSome fun _ => .demand (.demandSome fun _ => .demand (.accept rfl)))
  case settag => exact .permitted (.held fun _ _ => .accept rfl)
  case openRec => exact .permitted (.held fun _ _ => .demand (.accept rfl))
  case renew => exact .permitted (.held fun _ _ => .demandSome fun _ => .accept rfl)
  case setlen | read => exact .permitted (.demand (.held fun _ _ => .demand (.demand (.accept rfl))))
  case write => exact .permitted (.demand (.held fun _ _ => .demand (.demand (.demand (.accept rfl)))))
  case claim | claimtag => exact .permitted (.demandSome fun _ => .demand (.demandSome fun _ => .claim fun _ => rfl))
  case claimany => exact .permitted (.demandSome fun _ => .demandSome fun _ => .claim fun _ => rfl)
  case alloc => exact .permitted (.demand (.resources fun i => .accept (takeRecord_tableOnly i x _ _ _ _ s).bus))
  case retire => exact .permitted (.held fun i _ => .demand (.accept (retirePath_tableOnly i s).bus))
  case purge => exact .permitted (.demandSome fun c => .accept (purgeQueue_tableOnly c s).bus)
  case clone =>
    exact .permitted (.held fun i h => .demand (.demand (.resources fun c => .accept (makeClone_tableOnly x i c h.buf s).bus)))
  case post =>
    exact .permitted (.demandSome fun c => .demandSome fun reply => .held fun i h => .demand
      (.room (.accept (placeOn_tableOnly i h c reply s).bus)))
  case ret => exact .permitted (.held fun i h => .demand (.demandSome fun c => .room (.accept (placeOn_tableOnly i h c none s).bus)))

theorem handlerOfCode_bus (code : Byte) : (handlerOfCode code x args s).Yields fun u => u.bus = s.bus := by
  unfold handlerOfCode
  cases reqOfCode code with
  | none => exact .refuse _
  | some r => exact handlerOf_bus x args s r

end

theorem answered_bus (v : Via) (code : Byte) (st : Status) (result : List Byte) (s : State) :
    (answered v code st result s).bus = s.bus := by rw [answered_eq]

theorem takeCode_bus (code : Byte) (v : Via) (s : State) :
    (takeRequest code (handlerOfCode code) v s).bus = (entered v code s).bus := by
  rcases takeRequest_cases code (handlerOfCode code) v s with he | ⟨st, he⟩ | ⟨args, result, u, -, ha, he⟩
  · rw [he]
  · rw [he, answered_bus]
  · rw [he, answered_bus, handlerOfCode_bus v.side args _ code result u ha]

/-! ## The accesses that complete without LERR -/

/-- The last bus access completed without LERR. -/
def BusOk (s : State) : Prop := ∃ d, s.bus = some { lerr := false, data := d }

theorem busOk_busDone (d : Option Word) (s : State) : BusOk (busDone d s) := ⟨d, rfl⟩

theorem apertureRead_busOk (word : BitVec 10) (s : State) : BusOk (apertureRead word s) := by
  unfold apertureRead
  dsimp only
  split
  · split
    · split
      · exact busOk_busDone _ s
      · exact busOk_busDone _ _
    · exact busOk_busDone _ _
  · exact busOk_busDone _ s

theorem apertureWrite_busOk (word : BitVec 10) (data : Word) (be : BitVec 4) (s : State) : BusOk (apertureWrite word data be s) := by
  unfold apertureWrite
  split
  · split
    · exact busOk_busDone _ _
    · exact busOk_busDone _ _
  · exact busOk_busDone _ s

theorem argWrite_stored (n : Fin 4) (data : Word) (be : BitVec 4) (hr : s.nRESET = true) :
    argWrite n data be s = busDone none { s with args := s.args.set n (mergeLanes s.args[n] data be) } := if_pos hr

theorem argWrite_inReset (n : Fin 4) (data : Word) (be : BitVec 4) (hr : s.nRESET = false) : argWrite n data be s = busFailed true s :=
  if_neg (by simp [hr])

/-- Outside reset a REQ write with lane 0 enabled completes without LERR, whatever its request answers (R186). -/
theorem reqWrite_busOk (code : Byte) (upper : BitVec 24) (lanes : BitVec 3) (hr : s.nRESET = true) :
    BusOk (takeRequest code (handlerOfCode code) (.loc upper lanes) s) := ⟨none, by rw [takeCode_bus, entered_loc hr]⟩

/-! ## Register accesses by their offset (R184, R190, R193, R200) -/

theorem exec_busError (a : BusAccess) (s : State) : exec (.busError a) s = .next (busAccess a s) := rfl

section
variable {a : BusAccess}

theorem busAccess_inReset (ha : a.word.getLsbD 10 = false) (hr : s.nRESET = false) : busAccess a s = busFailed a.write s := by
  simp only [busAccess, ha, hr, Bool.false_eq_true, if_false]

theorem busAccess_register (ha : a.word.getLsbD 10 = false) (hr : s.nRESET = true) :
    busAccess a s = if a.write then registerWrite a s else registerRead a.word.toNat s := by
  simp only [busAccess, ha, hr, Bool.false_eq_true, if_false, if_true]

theorem isError_register (he : a.isError = true) : a.word.getLsbD 10 = false := by
  simp only [BusAccess.isError, Bool.and_eq_true, Bool.not_eq_true'] at he
  obtain ⟨ha, -⟩ := he
  exact ha

/-- An access that BUS_ERROR names meets no register it may act on. -/
theorem busAccess_isError (he : a.isError = true) (hr : s.nRESET = true) : busAccess a s = busFailed a.write s := by
  rw [busAccess_register (isError_register he) hr]
  simp only [BusAccess.isError, Bool.and_eq_true] at he
  obtain ⟨-, he⟩ := he
  unfold registerWrite registerRead
  cases hreg : regAt a.word.toNat with
  | none => cases hw : a.write <;> rfl
  | some r =>
    rw [hreg] at he
    cases r with
    | arg n => cases he
    | req =>
      simp only [Bool.and_eq_true, Bool.not_eq_true'] at he
      obtain ⟨hw, hlane⟩ := he
      simp only [hw, hlane, Bool.false_eq_true, if_false, if_true]
    | stat | res n | wstat =>
      have hw : a.write = true := he
      simp only [hw, if_true]

theorem busAccess_failed (h : a.isError = true ∨ (s.nRESET = false ∧ a.word.getLsbD 10 = false)) :
    busAccess a s = busFailed a.write s := by
  rcases h with he | ⟨hr, ha⟩
  · cases hr : s.nRESET with
    | false => exact busAccess_inReset (isError_register he) hr
    | true => exact busAccess_isError he hr
  · exact busAccess_inReset ha hr

/-- Outside reset every register access that BUS_ERROR does not name completes without LERR. -/
theorem busAccess_register_busOk (ha : a.word.getLsbD 10 = false) (he : a.isError = false) (hr : s.nRESET = true) :
    BusOk (busAccess a s) := by
  rw [busAccess_register ha hr]
  simp only [BusAccess.isError, ha, Bool.not_false, Bool.true_and] at he
  unfold registerWrite registerRead
  cases hreg : regAt a.word.toNat with
  | none =>
    rw [hreg] at he
    cases he
  | some r =>
    rw [hreg] at he
    cases hw : a.write with
    | false => exact busOk_busDone _ s
    | true =>
      cases r with
      | arg n =>
        simp only [if_true, argWrite_stored n a.data a.be hr]
        exact busOk_busDone _ _
      | req =>
        have hlane : a.be.getLsbD 0 = true := by simpa [hw] using he
        simp only [hlane, if_true]
        exact reqWrite_busOk _ _ _ hr
      | stat | res n | wstat => exact absurd (hw.symm.trans he) Bool.noConfusion

theorem busAccess_busOk (he : a.isError = false) (h : s.nRESET = true ∨ a.word.getLsbD 10 = true) : BusOk (busAccess a s) := by
  cases ha : a.word.getLsbD 10 with
  | true =>
    simp only [busAccess, ha, if_true]
    split
    · exact apertureWrite_busOk _ _ _ s
    · exact apertureRead_busOk _ s
  | false =>
    exact busAccess_register_busOk ha he (h.resolve_right fun h1 => Bool.noConfusion (ha.symm.trans h1))

end

/-- Settles O57: by the bus accesses that fail and those that do not, and by what a low nRESET makes of an ARG write and of a REQ write. -/
theorem busErrorsChangeNothing : Obligations.BusErrorsChangeNothing := by
  refine ⟨fun a s h => congrArg _ (busAccess_failed h), fun n data be s hr => congrArg _ (argWrite_inReset n data be hr),
    fun upper lanes s hr => ⟨fun r => ?_, fun code => congrArg _ (takeRequest_locInReset code _ upper lanes hr)⟩,
    fun a s he h => ⟨_, rfl, busAccess_busOk he h⟩⟩
  rw [exec_request, takeRequest_locInReset _ _ _ _ hr]

end Sys2Proof.Machine
end

section
/-! What a register holds: the lanes an ARG write stores, what a read returns, the fields of WSTAT (R184, R185, R187 to R189, R200). -/

namespace Sys2Proof.Machine

variable {s : State}

/-- A merge takes each enabled lane from the new word and leaves the others (R185). -/
theorem lane_mergeLanes (old new : Word) (be : BitVec 4) {k : Nat} (hk : k < 4) :
    lane (mergeLanes old new be) k = if be.getLsbD k then lane new k else lane old k := by
  rw [mergeLanes, lane_ofLanes_getD _ _ _ _ k hk]
  match k, hk with
  | 0, _ | 1, _ | 2, _ | 3, _ => rfl

theorem regAt_undefined : ∀ {n : Nat}, 11 ≤ n → regAt n = none
  | _ + 11, _ => rfl

/-- The registers stand below the aperture. -/
theorem register_offset {word : BitVec 11} {r : Reg} (h : regAt word.toNat = some r) : word.getLsbD 10 = false := by
  have hlt : word.toNat < 11 := by
    by_contra hge
    rw [regAt_undefined (Nat.le_of_not_lt hge)] at h
    cases h
  exact Nat.testBit_lt_two_pow (hlt.trans (by decide))

theorem exec_registerRead {word : BitVec 11} {r : Reg} (hreg : regAt word.toNat = some r) (data : Word) (be : BitVec 4)
    (hr : s.nRESET = true) : exec (.busError { write := false, word := word, data := data, be := be }) s =
      .next { s with bus := some { lerr := false, data := some (regRead s r) } } := by
  rw [exec_busError, busAccess_register (register_offset hreg) hr, registerRead, hreg]
  rfl

/-- A read of REQ returns the code in lane 0, and zero in the others (R188). -/
theorem ofLanes_low (b : Byte) : ofLanes b 0 0 0 = b.setWidth 32 := by
  revert b
  decide

/-- The fields of a half word laid out as the low half of WSTAT, each read back from its place (R200). -/
theorem wstatLayout_fields (host loc : Fin 3) (bound line : Bool) :
    let st := BitVec.ofNat 16 (host + 4 * loc + 16 * bound.toNat + 32 * line.toNat)
    st.extractLsb' 6 10 = 0 ∧ st.extractLsb' 0 2 = BitVec.ofNat 2 host ∧ st.extractLsb' 2 2 = BitVec.ofNat 2 loc ∧
      st.getLsbD 4 = bound ∧ st.getLsbD 5 = line := by
  revert host loc bound line
  decide

/-- The fields of WSTAT (R189, R200). -/
theorem wstat_fields (s : State) :
    (wstat s).extractLsb' 6 10 = 0 ∧ (wstat s).extractLsb' 0 2 = BitVec.ofNat 2 (sessionCode s.session.host) ∧
      (wstat s).extractLsb' 2 2 = BitVec.ofNat 2 (sessionCode s.session.loc) ∧ (wstat s).getLsbD 4 = s.aperture.isSome ∧
      (wstat s).getLsbD 5 = s.line .loc ∧ (wstat s).extractLsb' 16 16 = boundHandle s := by
  obtain ⟨zero, host, loc, bound, line⟩ :=
    wstatLayout_fields ⟨_, sessionCode_lt s.session.host⟩ ⟨_, sessionCode_lt s.session.loc⟩ s.aperture.isSome (s.line .loc)
  unfold wstat
  refine ⟨?_, ?_, ?_, ?_, ?_, ?_⟩
  · rw [BitVec.extractLsb'_append_eq_of_add_le (by decide), zero]
  · rw [BitVec.extractLsb'_append_eq_of_add_le (by decide), host]
  · rw [BitVec.extractLsb'_append_eq_of_add_le (by decide), loc]
  · rw [BitVec.getLsbD_append, if_pos (by decide), bound]
  · rw [BitVec.getLsbD_append, if_pos (by decide), line]
  · rw [BitVec.extractLsb'_append_eq_of_le (Nat.le_refl _)]
    simp

theorem sessionCode_bits (ses : Session) : BitVec.ofNat 2 (sessionCode ses) = (match ses with
    | .detached => 0 | .attached => 1 | .sweeping _ => 2) := by cases ses <;> rfl

theorem boundHandle_unbound (h : s.aperture = none) : boundHandle s = 0 := by rw [boundHandle, h]

theorem boundHandle_bound {i : RecIdx} (h : s.aperture = some i) : boundHandle s = handleOf (s.entry i).gen i := by
  rw [boundHandle, h]
  rfl

/-- Settles O58: an ARG write by the lanes it merges, a read by the register at its offset, WSTAT by its fields. -/
theorem registersHoldWhatIsWritten : Obligations.RegistersHoldWhatIsWritten := by
  refine ⟨fun n data be s hr => ⟨_, fun k hk => lane_mergeLanes _ data be hk, congrArg _ (argWrite_stored n data be hr)⟩,
    fun s data be hr => ?_⟩
  have reads {word : BitVec 11} {r : Reg} (hreg : regAt word.toNat = some r) := exec_registerRead hreg data be hr
  obtain ⟨zero, host, loc, bound, line, handle⟩ := wstat_fields s
  refine ⟨reads (r := .arg 0) rfl, reads (r := .arg 1) rfl, reads (r := .arg 2) rfl, reads (r := .arg 3) rfl, ?_,
    reads (r := .stat) rfl, reads (r := .res 0) rfl, reads (r := .res 1) rfl, reads (r := .res 2) rfl, reads (r := .res 3) rfl,
    wstat s, reads (r := .wstat) rfl, zero, host.trans (sessionCode_bits _), loc.trans (sessionCode_bits _), bound, line,
    fun h => handle.trans (boundHandle_unbound h), fun i h => handle.trans (boundHandle_bound h)⟩
  rw [← ofLanes_low]
  exact reads (r := .req) rfl

end Sys2Proof.Machine
end

section
/-! A reset pulse below its minimum, taken or not (R201). -/

namespace Sys2Proof.Machine

variable {s : State}

/-- One draw, then the pulse is taken or it is not. -/
theorem shortPulse_cases (taken untaken : State → State) (s : State) :
    shortPulse taken untaken s = taken { s with freeCount := s.freeCount + 1 } ∨
      shortPulse taken untaken s = untaken { s with freeCount := s.freeCount + 1 } := by
  unfold shortPulse
  dsimp only
  split
  · exact Or.inl rfl
  · exact Or.inr rfl

/-- nHRST's fall, by HOST's session (R119, R180). -/
theorem hostLinkReset_spec (bits : List Bool) (s : State) :
    let port : State := { s with rx := abandonedRx bits s, slot := .empty, overrun := false, checkMode := false }
    (s.session.host ≠ .attached ∧ hostLinkReset bits s = port) ∨
      (s.session.host = .attached ∧ SweepStarted .host port (hostLinkReset bits s)) := by
  by_cases h : s.session.host = .attached
  · rw [hostLinkReset_attached h, portReset_eq]
    exact Or.inr ⟨h, startSweep_spec .host _⟩
  · rw [hostLinkReset_notAttached h, portReset_eq]
    exact Or.inl ⟨h, rfl⟩

/-- A short pulse of nRESET taken whole: the fall, with the line high again after it (R193, R201). -/
theorem deviceResetFalls_risen (bits : List Bool) (held : Option HeldWrite) (s : State) :
    { deviceResetFalls bits held s with nRESET := true } =
      { State.reset with
        store := s.store, rx := abandonedRx bits s, shifted := s.shifted,
        bus := if held.isSome then some { lerr := true, data := none } else s.bus,
        nHRST := s.nHRST, freeCount := s.freeCount, pending := s.pending } := by
  have high : State.reset.nRESET = true := rfl
  rw [deviceResetFalls, abandonFrame_eq, heldFails_eq]
  generalize State.reset = blank at high ⊢
  simp only [high]

/-- Settles O60: one draw, and then one of the two outcomes at each line. -/
theorem shortPulseIsTakenOrNot : Obligations.ShortPulseIsTakenOrNot := by
  intro s bits held drawn
  refine ⟨fun hr => ?_, fun hr => exec_deviceReset_low hr _, fun hh => ⟨_, exec_hostLinkReset_short hh bits, ?_⟩,
    fun hh => exec_hostLinkReset_low hh _⟩
  · refine ⟨_, exec_deviceReset_short hr bits held, ?_⟩
    rcases shortPulse_cases (fun t => { deviceResetFalls bits held t with nRESET := true }) (completeWrite held) s with taken | untaken
    · exact Or.inr (Or.inr (taken.trans (deviceResetFalls_risen bits held drawn)))
    · rw [untaken]
      cases held with
      | none => exact Or.inl ⟨rfl, rfl⟩
      | some w => exact Or.inr (Or.inl ⟨w, rfl, exec_heldCommand w drawn⟩)
  · rcases shortPulse_cases (hostLinkReset bits) id s with taken | untaken
    · rw [taken]
      exact Or.inr (hostLinkReset_spec bits drawn)
    · exact Or.inl untaken

end Sys2Proof.Machine
end
